-- ==== Sys2Proof/Word.lean ====
section
/-! DEFINITION. The widths of the words the spec names (00_scope R8, 10_state R23, 30_encoding R70). -/

namespace Sys2Proof

/-- One byte: a received or transmitted octet, a `DMEM` cell, an 8-bit register. -/
abbrev Byte := BitVec 8

/-- Sixteen bits: `DMEM` addresses, `MAXLEN`, `COUNT`, `DIV`, `IDX`, `LBASE`, `LMAX` (R8, R23, R33). -/
abbrev Half := BitVec 16

/-- A command word `CW[63:0]` (R70). -/
abbrev CmdWord := BitVec 64

end Sys2Proof
end

