-- ==== Sys2Proof/Machine/Bytes.lean ====
section
/-! DEFINITION. The byte values the spec names (00_scope R12, 30_encoding R82, R83) and the little-endian split of
a word into bytes (20_memory R52, 30_encoding R70). The spec takes four of the values from ASCII (log 13). -/

namespace Sys2Proof.Machine

/-- `CR`, carriage return (R12). -/
def byteCR : Byte := 0x0D#8

/-- `LF`, line feed (R12). -/
def byteLF : Byte := 0x0A#8

/-- `BS`, backspace: the source's "ASCII 8" (R12). -/
def byteBS : Byte := 0x08#8

/-- `DEL`, delete: the source's "ASCII 127" (R12). -/
def byteDEL : Byte := 0x7F#8

/-- `SP`, the first byte of the erase sequence (R83). -/
def byteSP : Byte := 0x20#8

/-- `NUL`, the terminator (R83). -/
def byteNUL : Byte := 0x00#8

/-- Byte `k` of a 64-bit word, byte 0 being bits 7:0 (R52, R70). -/
def byteOf (w : CmdWord) (k : Nat) : Byte := w.extractLsb' (8 * k) 8

/-- The eight bytes of a word, the least significant first (R52, R70). -/
def bytesOfWord (w : CmdWord) : List Byte :=
  [byteOf w 0, byteOf w 1, byteOf w 2, byteOf w 3, byteOf w 4, byteOf w 5, byteOf w 6, byteOf w 7]

/-- The word whose bytes, least significant first, are the list's (R52, R70). -/
def wordOfBytes : List Byte → CmdWord
  | [] => 0#64
  | b :: bs => b.setWidth 64 ||| (wordOfBytes bs <<< 8)

end Sys2Proof.Machine
end

