-- ==== Sys2Proof/Syntax.lean ====
section
/-! DEFINITION. The instructions: one constructor per row of spec/opcode_table.json (30_encoding R86). -/

namespace Sys2Proof

/-- The seven decodable items of R86. A command word carries its operands as the fields of formats C and L
(R72, R73, R74); a received byte is an instruction of the line state machine (R82). -/
inductive Instr where
  /-- `CONFIGURE` (R100): `DSZ`, `STP` and `PAR` of the frame-format operand and the target baud rate. -/
  | configure (dsz : BitVec 2) (stp : BitVec 1) (par : BitVec 2) (baud : BitVec 32)
  /-- `RECV_LINE` (R150): the buffer's capacity `MAXLEN` and its first address `BASE`. -/
  | recvLine (maxlen base : Half)
  /-- `RXB_CR` (R155): byte 0x0D read in `FETCH`. -/
  | rxbCr
  /-- `RXB_LF` (R156): byte 0x0A read in `FETCH`. -/
  | rxbLf
  /-- `RXB_BS` (R157): byte 0x08 read in `FETCH` with `IDX > 0`. -/
  | rxbBs
  /-- `RXB_DEL` (R157): byte 0x7F read in `FETCH` with `IDX > 0`. -/
  | rxbDel
  /-- `RXB_DATA` (R158): any other byte read in `FETCH`. -/
  | rxbData (c : Byte)
  deriving DecidableEq, Repr

end Sys2Proof
end

