-- ==== Sys2Proof/WellFormed.lean ====
section
/-! DEFINITION. Which instructions the decoder can answer (30_encoding R76, R82). -/

namespace Sys2Proof

open Sys2Proof.Machine

/-- An instruction is well-formed when some input decodes to it. Every operand of a command word has its own field
(R72, R73), also `PAR = 01` and the zeros, which decode and fault at acceptance (R86), so commands always are.
A `CR` or an `LF` is never data, since its own class comes first (R82). -/
def Instr.wellFormed : Instr → Bool
  | .configure _ _ _ _ => true
  | .recvLine _ _ => true
  | .rxbCr => true
  | .rxbLf => true
  | .rxbBs => true
  | .rxbDel => true
  | .rxbData c => c != byteCR && c != byteLF

/-- Well-formed at a write index: `RXB_BS` and `RXB_DEL` exist only when `IDX > 0`, and then those two bytes are
never data (R82, rows 3 to 5). -/
def Instr.wellFormedAt (idx : Half) : Instr → Bool
  | .configure _ _ _ _ => true
  | .recvLine _ _ => true
  | .rxbCr => true
  | .rxbLf => true
  | .rxbBs => idx != 0#16
  | .rxbDel => idx != 0#16
  | .rxbData c =>
    c != byteCR && c != byteLF && (idx == 0#16 || (c != byteBS && c != byteDEL))

end Sys2Proof
end

