-- ==== Sys2Proof/Decode.lean ====
section
/-! DEFINITION. The decoder, total on any word and any bytes, the encoder, and the rows of the opcode table
(30_encoding R70 to R76, R82, R86). -/

namespace Sys2Proof

open Sys2Proof.Machine

/-- Why the decoder refuses its input. The first two are the ways a command word is illegal (R76), which the core
answers with the fault `ILLEGAL_CMD`; the last is no input of the machine at all. -/
inductive DecodeError where
  /-- `OP` is neither 0x01 nor 0x02 (R71). -/
  | reservedOpcode (op : Byte)
  /-- A bit that the command's format reserves is 1 (R72, R73). -/
  | reservedBits
  /-- Not eight bytes for a command word, or not one received byte (R84). -/
  | wrongLength
  deriving DecidableEq, Repr

/-- `OP = CW[7:0]` (R70). -/
def cmdOp (cw : CmdWord) : Byte := cw.extractLsb' 0 8

/-- `DSZ = CW[9:8]` (R72, R74). -/
def cmdDsz (cw : CmdWord) : BitVec 2 := cw.extractLsb' 8 2

/-- `STP = CW[10]` (R72, R74). -/
def cmdStp (cw : CmdWord) : BitVec 1 := cw.extractLsb' 10 1

/-- `PAR = CW[12:11]` (R72, R74). -/
def cmdPar (cw : CmdWord) : BitVec 2 := cw.extractLsb' 11 2

/-- `BAUD = CW[47:16]` (R72). -/
def cmdBaud (cw : CmdWord) : BitVec 32 := cw.extractLsb' 16 32

/-- `MAXLEN = CW[31:16]` (R73). -/
def cmdMaxlen (cw : CmdWord) : Half := cw.extractLsb' 16 16

/-- `BASE = CW[47:32]` (R73). -/
def cmdBase (cw : CmdWord) : Half := cw.extractLsb' 32 16

/-- Format C's reserved bits are 0: `CW[15:13]` and `CW[63:48]` (R72, R76). -/
def formatCReservedZero (cw : CmdWord) : Bool :=
  cw.extractLsb' 13 3 == 0#3 && cw.extractLsb' 48 16 == 0#16

/-- Format L's reserved bits are 0: `CW[15:8]` and `CW[63:48]` (R73, R76). -/
def formatLReservedZero (cw : CmdWord) : Bool :=
  cw.extractLsb' 8 8 == 0#8 && cw.extractLsb' 48 16 == 0#16

/-- The decoder of command words (R71, R72, R73, R76). -/
def decodeCommand (cw : CmdWord) : Except DecodeError Instr :=
  if cmdOp cw = 0x01#8 then
    if formatCReservedZero cw then
      .ok (.configure (cmdDsz cw) (cmdStp cw) (cmdPar cw) (cmdBaud cw))
    else .error .reservedBits
  else if cmdOp cw = 0x02#8 then
    if formatLReservedZero cw then .ok (.recvLine (cmdMaxlen cw) (cmdBase cw))
    else .error .reservedBits
  else .error (.reservedOpcode (cmdOp cw))

/-- The class of a byte read in `FETCH` at write index `idx`: rows in order, the first match wins (R82). -/
def decodeByte (c : Byte) (idx : Half) : Instr :=
  if c = byteCR then .rxbCr
  else if c = byteLF then .rxbLf
  else if c = byteBS ∧ idx ≠ 0#16 then .rxbBs
  else if c = byteDEL ∧ idx ≠ 0#16 then .rxbDel
  else .rxbData c

/-- Where an instruction's bytes come from: the command port (R70), or the receive queue while LRX is in `FETCH`
at some write index (R82). -/
inductive Source where
  | commandPort
  | lineByte (idx : Half)
  deriving DecidableEq, Repr

/-- The decoder on bytes. A command word is eight bytes, the least significant first, a received byte is one
(R70, R84). -/
def decode : Source → List Byte → Except DecodeError Instr
  | .commandPort, bs =>
    if bs.length = 8 then decodeCommand (wordOfBytes bs) else .error .wrongLength
  | .lineByte idx, [c] => .ok (decodeByte c idx)
  | .lineByte _, _ => .error .wrongLength

/-- The words of a `CONFIGURE` (R72, R74). -/
def encodeConfigure (dsz : BitVec 2) (stp : BitVec 1) (par : BitVec 2) (baud : BitVec 32) : CmdWord :=
  baud.setWidth 64 <<< 16 ||| par.setWidth 64 <<< 11 ||| stp.setWidth 64 <<< 10 |||
    dsz.setWidth 64 <<< 8 ||| 0x01#64

/-- The word of a `RECV_LINE` (R73). -/
def encodeRecvLine (maxlen base : Half) : CmdWord :=
  base.setWidth 64 <<< 32 ||| maxlen.setWidth 64 <<< 16 ||| 0x02#64

/-- The encoder: the bytes of a well-formed instruction (R70, R82). -/
def encode : Instr → List Byte
  | .configure dsz stp par baud => bytesOfWord (encodeConfigure dsz stp par baud)
  | .recvLine maxlen base => bytesOfWord (encodeRecvLine maxlen base)
  | .rxbCr => [byteCR]
  | .rxbLf => [byteLF]
  | .rxbBs => [byteBS]
  | .rxbDel => [byteDEL]
  | .rxbData c => [c]

/-- Where an instruction is read from, given the write index at which a received byte is read (R70, R82). -/
def Instr.source (idx : Half) : Instr → Source
  | .configure _ _ _ _ => .commandPort
  | .recvLine _ _ => .commandPort
  | .rxbCr => .lineByte idx
  | .rxbLf => .lineByte idx
  | .rxbBs => .lineByte idx
  | .rxbDel => .lineByte idx
  | .rxbData _ => .lineByte idx

/-- A row of the opcode map (R86): how many bytes the item has, and the pair a decoder tests. -/
structure OpcodeRow where
  mnemonic : String
  bytes : Nat
  matchBits : CmdWord
  maskBits : CmdWord
  deriving DecidableEq, Repr

/-- `(CW & mask) = match` (R76, R86). -/
def OpcodeRow.matches (r : OpcodeRow) (w : CmdWord) : Bool := w &&& r.maskBits == r.matchBits

/-- The row of format C (R86). -/
def rowConfigure : OpcodeRow := ⟨"CONFIGURE", 8, 0x0000000000000001#64, 0xFFFF00000000E0FF#64⟩

/-- The row of format L (R86). -/
def rowRecvLine : OpcodeRow := ⟨"RECV_LINE", 8, 0x0000000000000002#64, 0xFFFF00000000FFFF#64⟩

/-- The opcode map's row of each instruction (R86, spec/opcode_table.json). -/
def Instr.row : Instr → OpcodeRow
  | .configure _ _ _ _ => rowConfigure
  | .recvLine _ _ => rowRecvLine
  | .rxbCr => ⟨"RXB_CR", 1, 0x0D#64, 0xFF#64⟩
  | .rxbLf => ⟨"RXB_LF", 1, 0x0A#64, 0xFF#64⟩
  | .rxbBs => ⟨"RXB_BS", 1, 0x08#64, 0xFF#64⟩
  | .rxbDel => ⟨"RXB_DEL", 1, 0x7F#64, 0xFF#64⟩
  | .rxbData _ => ⟨"RXB_DATA", 1, 0x00#64, 0x00#64⟩

/-- The instruction the decoder reads from bits numbered as spec/opcode_table.json numbers them: a row of at most
eight bits is a received byte, read at write index 1 so that the rows conditioned on `IDX > 0` apply; a longer row
is a command word, its bytes laid out least significant first (R70, R82). -/
def decodeTableWord (nbits w : Nat) : Option Instr :=
  if nbits ≤ 8 then (decode (.lineByte 1#16) [BitVec.ofNat 8 w]).toOption
  else (decode .commandPort (bytesOfWord (BitVec.ofNat 64 w))).toOption

end Sys2Proof
end

