-- ==== Sys2Proof/Config.lean ====
section
/-! DEFINITION. What an implementation fixes (00_scope R7) and the free values: constants with no body, of which
no proof can know anything but their type. -/

namespace Sys2Proof

/-- The build's parameters (00_scope R7), each in a type that holds exactly the legal values:
`1 ≤ CLK_FREQ ≤ 2^32 − 1` is kept as `CLK_FREQ − 1`, `8 ≤ DIV_W ≤ 16` as `DIV_W − 8` (log 6). -/
structure Params where
  clkFreqLess1 : Fin 4294967295
  divWLess8 : Fin 9
  hasSelectBit : Bool
  deriving DecidableEq, Repr, Inhabited

/-- `CLK_FREQ`, the reference oscillator rate in hertz (R7). -/
def Params.clkFreq (p : Params) : Nat := p.clkFreqLess1.val + 1

/-- `DIV_W`, the width in bits of the latched divisor (R7). -/
def Params.divW (p : Params) : Nat := p.divWLess8.val + 8

/-- What the agent `HOST` may do in one step (70_reset_and_hazards R230). -/
inductive HostMove where
  /-- Issue a command word on the command port (R70, R193). -/
  | command (cw : CmdWord)
  /-- Read a core register by number (R33, R34). -/
  | readReg (n : Nat)
  /-- Read a byte of `DMEM` (R230). -/
  | readMem (a : Half)
  /-- Write a byte of `DMEM` (R230). -/
  | writeMem (a : Half) (v : Byte)
  /-- Assert reset (R220). -/
  | reset
  deriving DecidableEq, Repr, Inhabited

/-- One step of one agent (00_scope R9), with what its environment chooses. -/
inductive Move where
  /-- A step of the agent `HOST`. -/
  | host (h : HostMove)
  /-- A step of the agent `CORE` (R152). -/
  | core
  /-- A step of the agent `CHAN_RX` that delivers the byte `b` (R134). -/
  | chanRx (b : Byte)
  /-- A step of the agent `CHAN_TX` (R135). -/
  | chanTx
  deriving DecidableEq, Repr, Inhabited

/-- The parameters of this instance (R7, R223): OPEN in the spec, so no value is known (log 6). -/
opaque Config.params : Params

/-- FREE VALUE: which agent steps next, and with what, when `State.script` names no move. The interleaving is
free (R9, R134, R235); the argument is the draw's number (log 1). -/
opaque Config.freeMove : Nat → Move

/-- FREE VALUE: for how many moves that no script names `CHAN_TX` may be passed over once a byte stands in `TXH`
(R233: it is weakly fair, so some finite number); the argument is the draw's number when the byte was put there
(log 2). -/
opaque Config.txPatience : Nat → Nat

/-- FREE VALUE: for how many moves that no script names `CORE` may be passed over while it has an enabled step (R233:
an erase echo always completes, so some finite number); the argument is the draw's number when it last stepped or had
no step (log 16). -/
opaque Config.corePatience : Nat → Nat

/-- FREE VALUE: the byte `DMEM` holds at an address nothing has written since power-on (R222, log 5). -/
opaque Config.launchByte : Nat → Byte

end Sys2Proof
end

