-- ==== Sys2Proof/Machine/Operands.lean ====
section
/-! DEFINITION. The operand forms: the frame-format operand and the mode byte (30_encoding R74 to R81), the divisor
arithmetic on `BAUD` (40_configure R102 to R106), the buffer operands (42_line_receive R150). -/

namespace Sys2Proof.Machine

/-- The parity code 01, which is no parity mode of the source (R77). -/
def parReserved : BitVec 2 := 0b01#2

/-- The source's three parity modes (R74). -/
inductive Parity where
  | none
  | even
  | odd
  deriving DecidableEq, Repr

/-- `PAR`: 00 none, 10 even, 11 odd (R74). -/
def Parity.code : Parity → BitVec 2
  | .none => 0b00#2
  | .even => 0b10#2
  | .odd => 0b11#2

/-- A frame format of the source (R75): data-bit count less 5, two stop bits or one, parity. -/
structure FrameFormat where
  dataLess5 : Fin 4
  twoStop : Bool
  parity : Parity
  deriving DecidableEq, Repr

/-- `DSZ`, the data-bit count less 5 (R74). -/
def FrameFormat.dsz (f : FrameFormat) : BitVec 2 := BitVec.ofNat 2 f.dataLess5.val

/-- `STP`, the stop-bit count less 1 (R74). -/
def FrameFormat.stp (f : FrameFormat) : BitVec 1 := BitVec.ofBool f.twoStop

/-- The `FMT` operand `{000, PAR, STP, DSZ}` of three field values (R74, R75). -/
def fmtOf (dsz : BitVec 2) (stp : BitVec 1) (par : BitVec 2) : Byte :=
  par.setWidth 8 <<< 3 ||| stp.setWidth 8 <<< 2 ||| dsz.setWidth 8

/-- The `FMT` operand of a frame format (R75). -/
def FrameFormat.fmt (f : FrameFormat) : Byte := fmtOf f.dsz f.stp f.parity.code

/-- A legal `FMT` value: reserved bits 0 and a parity code the source names (R74, R76, R77). -/
def fmtLegal (fmt : Byte) : Bool :=
  fmt.extractLsb' 5 3 == 0#3 && fmt.extractLsb' 3 2 != parReserved

/-- `SEL`, 1 exactly when the build has the select bit (R79, R80). -/
def selBit (p : Params) : BitVec 1 := BitVec.ofBool p.hasSelectBit

/-- The mode byte `(SEL << 7) | (PAR << 4) | (STP << 3) | (DSZ << 1)` (R79, R107, log 13). -/
def modeByte (p : Params) (dsz : BitVec 2) (stp : BitVec 1) (par : BitVec 2) : Byte :=
  (selBit p).setWidth 8 <<< 7 ||| par.setWidth 8 <<< 4 ||| stp.setWidth 8 <<< 3 ||| dsz.setWidth 8 <<< 1

/-- `ceil_div(a, b)` for `b ≥ 1` (R11): `(a + b − 1) div b`. -/
def ceilDiv (a b : Nat) : Nat := (a + b - 1) / b

/-- `d8 = ceil_div(CLK_FREQ, 8 × BAUD) − 1` (R102). -/
def divisor8 (clk baud : Nat) : Nat := ceilDiv clk (8 * baud) - 1

/-- `d16 = ceil_div(CLK_FREQ, 16 × BAUD) − 1` (R104). -/
def divisor16 (clk baud : Nat) : Nat := ceilDiv clk (16 * baud) - 1

/-- `DIV8_MAX`, the largest double-speed divisor accepted (R8, R103; 90_conflicts C1). -/
def div8Max : Nat := 255

/-- Double speed is selected when `d8 ≤ 255`, whatever `DIV_W` is (R103). -/
def doubleSpeed (clk baud : Nat) : Bool := divisor8 clk baud ≤ div8Max

/-- The value latched in `DIV`: `d8` in double speed, else the low `DIV_W` bits of `d16` (R103, R104, log 12). -/
def divisorValue (p : Params) (baud : Nat) : Nat :=
  if doubleSpeed p.clkFreq baud then divisor8 p.clkFreq baud
  else divisor16 p.clkFreq baud % 2 ^ p.divW

/-- The address one past the buffer, a natural number so that it does not wrap (R150). -/
def bufferEnd (base maxlen : Half) : Nat := base.toNat + maxlen.toNat

end Sys2Proof.Machine
end

