-- ==== Sys2Proof/Machine/State.lean ====
section
/-! DEFINITION. The machine's state: every element of 10_state R38 as plain data, the model's own four fields, the
reasons to stop, and the state after reset (70_reset_and_hazards R220, R222). -/

namespace Sys2Proof.Machine

/-- `LSTATE` (10_state R24). -/
inductive LState where
  /-- No line reception in progress. -/
  | idle
  /-- At the top of the receive loop. -/
  | fetch
  /-- A `CR` has been read; one non-blocking check for a following byte. -/
  | peek
  /-- Send `SP`, the first byte of the erase sequence. -/
  | eraseSp
  /-- Send `BS`, the second byte of the erase sequence. -/
  | eraseBs
  /-- Write the terminator and publish the count. -/
  | term
  deriving DecidableEq, Repr

/-- `DMEM` (20_memory R50): the bytes written since power-on, addresses strictly rising. An address not listed holds
its launch byte, which nothing has written (70 R222, log 5). -/
abbrev Memory := List Host.Cell

/-- The state of the core, of its channel and of `DMEM` (10_state R23 to R32), then the model's own fields. -/
structure State where
  /-- `DIV`, or unwritten (R25, R34, log 4). Bits at and above `DIV_W` read 0 (R33). -/
  div : Option Half
  /-- `MODE`, or unwritten (R26). -/
  mode : Option Byte
  /-- `TXEN`, `CTRL[0]` (R27). -/
  txen : Bool
  /-- `RXEN`, `CTRL[1]` (R27). -/
  rxen : Bool
  /-- `U2X`, `CTRL[2]` (R27). -/
  u2x : Bool
  /-- `CONFIGURED`, `STATUS[0]` (R28). -/
  configured : Bool
  /-- `BUSY`, `STATUS[1]` (R28, log 11). -/
  busy : Bool
  /-- `DIV_OVF`, `STATUS[2]` (R28). -/
  divOvf : Bool
  /-- `FAULTED`, `STATUS[3]` (R28). -/
  faulted : Bool
  /-- `FAULT_CAUSE` (R29). -/
  faultCause : Byte
  /-- `FAULT_INFO` (R29). -/
  faultInfo : CmdWord
  /-- `COUNT`, or unwritten (R30). -/
  count : Option Half
  /-- `LSTATE` (R23, R24). -/
  lstate : LState
  /-- `IDX`, the logical write index (R23). -/
  idx : Half
  /-- `LBASE` (R23). -/
  lbase : Half
  /-- `LMAX` (R23). -/
  lmax : Half
  /-- `RXQ`, received bytes not yet read, oldest first (R32). -/
  rxq : List Byte
  /-- `TXH`, the transmit holding register: empty or one byte (R32). -/
  txh : Option Byte
  /-- `TXLINE`, every byte sent, oldest first (R32). -/
  txline : List Byte
  /-- `DMEM` (R50). -/
  dmem : Memory
  /-- MODEL'S OWN: the moves the agents make next, in order (log 1). -/
  script : List Move
  /-- MODEL'S OWN: the number of the next free value to draw (log 1). -/
  tick : Nat
  /-- MODEL'S OWN: for how many more unscripted moves `CHAN_TX` may be passed over while it is enabled (log 2). -/
  txWait : Nat
  /-- MODEL'S OWN: for how many more unscripted moves `CORE` may be passed over while it is enabled (log 16). -/
  coreWait : Nat
deriving DecidableEq, Repr

/-- Reasons for the machine to stop with a fault. The spec's own faults (60_exceptions R191) are not here: they are
recorded in the state and the machine goes on (R192, R194). -/
inductive Fault where
  /-- Raised by `memWrite` for an address at or past 2^16, which `DMEM` does not have (R50). Safe: no state that
  meets R39 (3) reaches it (log 10). -/
  | outsideDmem (addr : Nat)
deriving DecidableEq, Repr

/-- Reasons for the machine to have no next state. -/
inductive Refusal where
  /-- An instruction with no meaning yet, by its mnemonic. Raised by no arm of `exec` now. Safe. -/
  | notModelled (mnemonic : String)
  /-- Raised by `hostStep` for a host read or write of a line buffer's byte while `BUSY = 1`: the model has no move
  for it (R226, R231; 93 I18, log 10). Unsafe only as the spec says of its own rule: such a host is not described. -/
  | bufferOwnedByCore (addr : Half)
deriving DecidableEq, Repr

/-- The reset state (10_state R38, 70 R220, R222), with nothing listed in `DMEM` and no move scripted. -/
def State.reset : State where
  div := none
  mode := none
  txen := false
  rxen := false
  u2x := false
  configured := false
  busy := false
  divOvf := false
  faulted := false
  faultCause := 0x00#8
  faultInfo := 0#64
  count := none
  lstate := .idle
  idx := 0#16
  lbase := 0#16
  lmax := 0#16
  rxq := []
  txh := none
  txline := []
  dmem := []
  script := []
  tick := 0
  txWait := 0
  coreWait := 0

end Sys2Proof.Machine
end

