-- ==== Sys2Proof/Machine/Flags.lean ====
section
/-! DEFINITION. The flags: the channel's two derived ones (10_state R31), `DIV_OVF`'s condition (40_configure R104),
and the three flag bytes the host reads (10_state R27, R28, R31). -/

namespace Sys2Proof.Machine

/-- `UDRE`, "transmit buffer empty": `TXH = empty` (R31). -/
def udre (s : State) : Bool := s.txh.isNone

/-- `RXC`, "receive data ready": `RXQ ≠ []` (R31). -/
def rxc (s : State) : Bool := !s.rxq.isEmpty

/-- `DIV_OVF`: normal speed with `d16 ≥ 2^DIV_W` (R103, R104). -/
def divisorOverflows (p : Params) (baud : Nat) : Bool :=
  !doubleSpeed p.clkFreq baud && 2 ^ p.divW ≤ divisor16 p.clkFreq baud

/-- One flag at its bit of an 8-bit register. -/
def flagAt (b : Bool) (bit : Nat) : Byte := (BitVec.ofBool b).setWidth 8 <<< bit

/-- `CTRL`: bit 0 `TXEN`, bit 1 `RXEN`, bit 2 `U2X`, bits 7:3 hardwired 0 (R27). -/
def ctrlByte (s : State) : Byte := flagAt s.txen 0 ||| flagAt s.rxen 1 ||| flagAt s.u2x 2

/-- `STATUS`: bit 0 `CONFIGURED`, bit 1 `BUSY`, bit 2 `DIV_OVF`, bit 3 `FAULTED`, bits 7:4 hardwired 0 (R28). -/
def statusByte (s : State) : Byte :=
  flagAt s.configured 0 ||| flagAt s.busy 1 ||| flagAt s.divOvf 2 ||| flagAt s.faulted 3

/-- `CHSTAT`: bit 0 `UDRE`, bit 1 `RXC`, bits 7:2 hardwired 0 (R31). -/
def chstatByte (s : State) : Byte := flagAt (udre s) 0 ||| flagAt (rxc s) 1

end Sys2Proof.Machine
end

