-- ==== Sys2Proof/Machine/Memory.lean ====
section
/-! DEFINITION. Reading, writing and the canonical form of `DMEM` (20_memory R50, R54, R57). -/

namespace Sys2Proof.Machine

/-- The number of bytes of `DMEM`: 16-bit addresses (R50). -/
def dmemSize : Nat := 65536

/-- The byte written last at an address, or none when nothing has been written there since power-on. -/
def Memory.read : Memory → Nat → Option Byte
  | [], _ => none
  | (k, v) :: m, a => if a = k then some v else Memory.read m a

/-- Writing one byte (R54), in its place in the rising order. -/
def Memory.write : Memory → Nat → Byte → Memory
  | [], a, v => [(a, v)]
  | (k, w) :: m, a, v =>
    if a < k then (a, v) :: (k, w) :: m
    else if a = k then (a, v) :: m
    else (k, w) :: Memory.write m a v

/-- Addresses strictly rising from a lower bound, and all in `DMEM`. -/
def Memory.risingFrom : Nat → Memory → Bool
  | _, [] => true
  | lo, (k, _) :: m => lo ≤ k && k < dmemSize && Memory.risingFrom (k + 1) m

/-- The canonical form: addresses strictly rising, all below 2^16. An unlisted byte has no written value, so no entry
can equal what an unlisted address reads as (log 5). -/
def Memory.wf (m : Memory) : Bool := Memory.risingFrom 0 m

end Sys2Proof.Machine
end

