-- ==== Sys2Proof/Machine/Ops.lean ====
section
/-! DEFINITION. The named operations over the state: the record updates, the memory write, the channel's three
primitives (41_channel R131 to R133), the fault entry and the reset beside it (60_exceptions R192, 70 R220), and the
acceptance of a command (60 R193). -/

namespace Sys2Proof.Machine

/-- What one step answers. -/
abbrev Result := Host.Outcome State Fault Refusal

/-- The next state of a result, if it has one. -/
def nextState? : Result → Option State
  | .next s => some s
  | .fault _ => none
  | .refused _ => none

/-- Go on from a next state; a fault or a refusal stands. -/
def andThen (r : Result) (k : State → Result) : Result :=
  match r with
  | .next s => k s
  | .fault e => .fault e
  | .refused e => .refused e

/-! ### Record updates -/

def State.withLState (s : State) (l : LState) : State := { s with lstate := l }

def State.withIdx (s : State) (i : Half) : State := { s with idx := i }

def State.withRxq (s : State) (q : List Byte) : State := { s with rxq := q }

def State.withDmem (s : State) (m : Memory) : State := { s with dmem := m }

/-- `TXH <- b` (R133); how long `CHAN_TX` may now be passed over is free (R233, log 2). -/
def State.holdTx (s : State) (b : Byte) : State :=
  { s with txh := some b, txWait := Config.txPatience s.tick }

/-- `TXLINE <- TXLINE ++ [b] ; TXH <- empty` (R135). -/
def State.drainTx (s : State) (b : Byte) : State :=
  { s with txh := none, txline := s.txline ++ [b] }

/-- The writes of an accepted `CONFIGURE` (R100, R110), in one update. -/
def State.latch (s : State) (div : Half) (u2x ovf : Bool) (mode : Byte) : State :=
  { s with div := some div, u2x := u2x, divOvf := ovf, mode := some mode, txen := true, rxen := true,
           configured := true }

/-- The writes of an accepted `RECV_LINE` (R150). -/
def State.openLine (s : State) (base maxlen : Half) : State :=
  { s with lbase := base, lmax := maxlen, idx := 0#16, lstate := .fetch, busy := true }

/-- `COUNT <- IDX ; LSTATE <- IDLE`, and `BUSY` becomes 0 (R163). -/
def State.closeLine (s : State) : State :=
  { s with count := some s.idx, lstate := .idle, busy := false }

/-- The fault record (R192). -/
def State.recordFault (s : State) (cause : Byte) (cw : CmdWord) : State :=
  { s with faultCause := cause, faultInfo := cw, faulted := true }

/-- The scripted move has been taken (log 1). -/
def State.popMove (s : State) (rest : List Move) : State := { s with script := rest }

/-- A free move has been drawn (log 1). -/
def State.drawMove (s : State) : State := { s with tick := s.tick + 1 }

/-- A move that no script names has been made: `CHAN_TX` may be passed over once less often, and so may `CORE` if it
was passed over now; if not, how often it may be from now on is free (log 2, log 16). -/
def State.countTurn (s : State) (corePassed : Bool) : State :=
  { s with txWait := s.txWait - 1,
           coreWait := if corePassed then s.coreWait - 1 else Config.corePatience s.tick }

/-! ### Faults and reset -/

/-- The causes of R191. -/
inductive FaultCause where
  | illegalCmd
  | illegalFmt
  | baudZero
  | lenZero
  | bufRange
  | busy
  | notConfigured
  deriving DecidableEq, Repr

/-- The code stored in `FAULT_CAUSE` (R191). -/
def FaultCause.code : FaultCause → Byte
  | .illegalCmd => 0x01#8
  | .illegalFmt => 0x02#8
  | .baudZero => 0x03#8
  | .lenZero => 0x04#8
  | .bufRange => 0x05#8
  | .busy => 0x06#8
  | .notConfigured => 0x07#8

/-- Fault entry, `raise Fault(cause, cw)`: the record and nothing else (R192, log 9). No vector, no mode, no saved pc: the
core has none. There is no return from a fault (R195). -/
def raiseFault (cause : FaultCause) (cw : CmdWord) (s : State) : State := s.recordFault cause.code cw

/-- Reset, the one way out of a fault: every element to its value of R38, `DMEM` unchanged (R220, R195). The moves the
agents go on to make are not the core's and stay. -/
def applyReset (s : State) : State :=
  { State.reset with dmem := s.dmem, script := s.script, tick := s.tick, txWait := s.txWait,
                     coreWait := s.coreWait }

/-- The first check that fails decides the cause (R193). -/
def firstFault : List (Bool × FaultCause) → Option FaultCause
  | [] => none
  | (bad, cause) :: rest => if bad then some cause else firstFault rest

/-- Acceptance of the legal command word `cw` (R193): ignored when `FAULTED = 1` (R194), a `BUSY` fault when
`BUSY = 1`, then the command's own checks in order, then its body. -/
def acceptCommand (cw : CmdWord) (checks : List (Bool × FaultCause)) (body : State → State) (s : State) : State :=
  if s.faulted then s
  else
    match firstFault ((s.busy, .busy) :: checks) with
    | some cause => raiseFault cause cw s
    | none => body s

/-! ### Memory -/

/-- `MemWrite(addr, 1, v)` (R11, R54). An address past the top of `DMEM` does not exist (R50). -/
def memWrite (addr : Nat) (v : Byte) (s : State) : Result :=
  if addr < dmemSize then .next (s.withDmem (Memory.write s.dmem addr v)) else .fault (.outsideDmem addr)

/-- `LBASE + IDX`, used as the `DMEM` address unchanged (R58): it is not cut to 16 bits. -/
def bufAddr (s : State) : Nat := s.lbase.toNat + s.idx.toNat

/-! ### The channel's primitives -/

/-- `RxPop()` (R131): the oldest byte and the state without it; none while `RXQ = []`, when the calling step waits. -/
def rxPop (s : State) : Option (Byte × State) :=
  match s.rxq with
  | [] => none
  | c :: q => some (c, s.withRxq q)

/-- `RxAvail()` (R132): `RXC`, with no side effect. -/
def rxAvail (s : State) : Bool := rxc s

/-- `TxPut(b)` (R133): none while `UDRE = 0`, when the calling step waits. -/
def txPut (b : Byte) (s : State) : Option State := if udre s then some (s.holdTx b) else none

end Sys2Proof.Machine
end

