-- ==== Sys2Proof/Machine/Brc.lean ====
section
/-! DEFINITION. The unit BRC: the meaning of `CONFIGURE` (40_configure R100 to R113). -/

namespace Sys2Proof.Machine

/-- The body of `CONFIGURE` under given parameters: divisor, speed, overflow flag, mode byte and enables, all in one
step (R100, R110). -/
def configureBody (p : Params) (dsz : BitVec 2) (stp : BitVec 1) (par : BitVec 2) (baud : BitVec 32)
    (s : State) : State :=
  s.latch (BitVec.ofNat 16 (divisorValue p baud.toNat)) (doubleSpeed p.clkFreq baud.toNat)
    (divisorOverflows p baud.toNat) (modeByte p dsz stp par)

/-- `CONFIGURE` under given parameters: `ILLEGAL_FMT`, then `BAUD_ZERO`, then the body (R100, R193). -/
def configureWith (p : Params) (dsz : BitVec 2) (stp : BitVec 1) (par : BitVec 2) (baud : BitVec 32)
    (s : State) : State :=
  acceptCommand (encodeConfigure dsz stp par baud)
    [(par == parReserved, .illegalFmt), (baud == 0#32, .baudZero)]
    (configureBody p dsz stp par baud) s

/-- `CONFIGURE` (R100). -/
def execConfigure (dsz : BitVec 2) (stp : BitVec 1) (par : BitVec 2) (baud : BitVec 32) (s : State) : Result :=
  .next (configureWith Config.params dsz stp par baud s)

end Sys2Proof.Machine
end

