-- ==== Sys2Proof/Machine/Lrx.lean ====
section
/-! DEFINITION. The unit LRX: the meanings of `RECV_LINE` and of the five received-byte classes (42_line_receive R150,
R155 to R159), and the steps that read no byte (R153, R160 to R163). -/

namespace Sys2Proof.Machine

/-- `RECV_LINE` (R150): `NOT_CONFIGURED`, then `LEN_ZERO`, then `BUF_RANGE`, then the buffer is latched and the line
opened. -/
def execRecvLine (maxlen base : Half) (s : State) : Result :=
  .next (acceptCommand (encodeRecvLine maxlen base)
    [(!s.configured, .notConfigured), (maxlen == 0#16, .lenZero),
      (dmemSize < bufferEnd base maxlen, .bufRange)]
    (fun t => t.openLine base maxlen) s)

/-- `IDX < LMAX − 1`: the buffer has room for a byte before the terminator slot (R153, R154). -/
def hasRoom (s : State) : Bool := s.idx.toNat + 1 < s.lmax.toNat

/-- LRX is at the point where a byte read in `FETCH` acts (R152, R154). -/
def lineByteReady (s : State) : Bool := !s.faulted && s.lstate == .fetch && hasRoom s

/-- The action of a byte class on the state from which the byte has been read (R154). Where LRX reads no byte the
step is not enabled and nothing changes (R152, log 3). -/
def onLineByte (action : State → Result) (s : State) : Result :=
  if lineByteReady s then action s else .next s

/-- The store step (R158): the byte at the write index, the index advanced, back to the top of the loop. -/
def storeByte (c : Byte) (s : State) : Result :=
  andThen (memWrite (bufAddr s) c s) fun t => .next ((t.withIdx (t.idx + 1#16)).withLState .fetch)

/-- The erase step (R157): the index decremented, the echo to follow; memory is not written (R165). -/
def eraseByte (s : State) : Result := .next ((s.withIdx (s.idx - 1#16)).withLState .eraseSp)

/-- A backspace or delete byte: an erase when `IDX > 0` (R157), stored as data on an empty buffer (R159). -/
def eraseOrStore (c : Byte) (s : State) : Result := if s.idx = 0#16 then storeByte c s else eraseByte s

/-- `RXB_CR` (R155). -/
def execRxbCr (s : State) : Result := onLineByte (fun t => .next (t.withLState .peek)) s

/-- `RXB_LF` (R156). -/
def execRxbLf (s : State) : Result := onLineByte (fun t => .next (t.withLState .term)) s

/-- `RXB_BS` (R157, R159). -/
def execRxbBs (s : State) : Result := onLineByte (eraseOrStore byteBS) s

/-- `RXB_DEL` (R157, R159). -/
def execRxbDel (s : State) : Result := onLineByte (eraseOrStore byteDEL) s

/-- `RXB_DATA` (R158). -/
def execRxbData (c : Byte) (s : State) : Result := onLineByte (storeByte c) s

/-! ### Steps that read no byte -/

/-- `FETCH` with the buffer full (R153). -/
def bufferFullStep (s : State) : Result := .next (s.withLState .term)

/-- `PEEK` (R160): a byte that has arrived is discarded, whatever it is; the step never waits. -/
def peekStep (s : State) : Result :=
  if rxAvail s then .next ((s.withRxq s.rxq.tail).withLState .term) else .next (s.withLState .term)

/-- An erase step (R161, R162): send a byte and go on, or wait unchanged while `TXH` is full (R136). -/
def sendStep (b : Byte) (l : LState) (s : State) : Result :=
  match txPut b s with
  | some t => .next (t.withLState l)
  | none => .next s

/-- `ERASE_SP` (R161). -/
def eraseSpStep (s : State) : Result := sendStep byteSP .eraseBs s

/-- `ERASE_BS` (R162). -/
def eraseBsStep (s : State) : Result := sendStep byteBS .fetch s

/-- `TERM` (R163): the terminator, `COUNT` and the fall of `BUSY` in one step. -/
def termStep (s : State) : Result := andThen (memWrite (bufAddr s) byteNUL s) fun t => .next t.closeLine

end Sys2Proof.Machine
end

