-- ==== Sys2Proof/Machine/Dispatch.lean ====
section
/-! DEFINITION. The one dispatch: which meaning each instruction has (30_encoding R86). -/

namespace Sys2Proof.Machine

/-- What an instruction does. -/
def exec (i : Instr) (s : State) : Host.Outcome State Fault Refusal :=
  match i with
  | .configure dsz stp par baud => Sys2Proof.Machine.execConfigure dsz stp par baud s
  | .recvLine maxlen base => Sys2Proof.Machine.execRecvLine maxlen base s
  | .rxbCr => Sys2Proof.Machine.execRxbCr s
  | .rxbLf => Sys2Proof.Machine.execRxbLf s
  | .rxbBs => Sys2Proof.Machine.execRxbBs s
  | .rxbDel => Sys2Proof.Machine.execRxbDel s
  | .rxbData c => Sys2Proof.Machine.execRxbData c s

end Sys2Proof.Machine
end

