-- ==== Sys2Proof/Machine/HostPort.lean ====
section
/-! DEFINITION. What the host reads: the register read port (10_state R33, R34), a register byte by byte
(20_memory R52), and `DMEM` (70 R226, R230). None of it changes the state. -/

namespace Sys2Proof.Machine

/-- The register read port (R33), each register zero-extended to the widest (log 8). No value for a register that is
unwritten (R34), and none for a number other than 0 to 7. -/
def readReg (s : State) (n : Nat) : Option (BitVec 64) :=
  match n with
  | 0 => s.div.map (BitVec.setWidth 64)
  | 1 => s.mode.map (BitVec.setWidth 64)
  | 2 => some ((ctrlByte s).setWidth 64)
  | 3 => some ((statusByte s).setWidth 64)
  | 4 => some (s.faultCause.setWidth 64)
  | 5 => some s.faultInfo
  | 6 => s.count.map (BitVec.setWidth 64)
  | 7 => some ((chstatByte s).setWidth 64)
  | _ => none

/-- How many bytes the register of a number has (R33); 0 where there is no register. -/
def regBytes (n : Nat) : Nat :=
  match n with
  | 0 => 2
  | 1 => 1
  | 2 => 1
  | 3 => 1
  | 4 => 1
  | 5 => 8
  | 6 => 2
  | 7 => 1
  | _ => 0

/-- Byte `k` of a register, the least significant at offset 0 (R52). For `DIV` these are its low and its high byte
(R25). -/
def readRegByte (s : State) (n k : Nat) : Option Byte :=
  if k < regBytes n then (readReg s n).map (fun v => v.extractLsb' (8 * k) 8) else none

/-- The byte at an address is in the line buffer `[LBASE, LBASE + LMAX)` (R14). -/
def inLineBuffer (s : State) (a : Nat) : Bool := s.lbase.toNat ≤ a && a < s.lbase.toNat + s.lmax.toNat

/-- While `BUSY = 1` the buffer belongs to the core (R226). -/
def ownedByCore (s : State) (a : Half) : Bool := s.busy && inLineBuffer s a.toNat

/-- The byte a host read of `DMEM` gives: the one written last, else the free launch byte (R222, R230, log 5). -/
def hostReadByte (s : State) (a : Half) : Byte :=
  (Memory.read s.dmem a.toNat).getD (Config.launchByte a.toNat)

end Sys2Proof.Machine
end

