-- ==== Sys2Proof/Machine/Agents.lean ====
section
/-! DEFINITION. The four agents' steps and the choice of the next one (00_scope R9). An agent whose step is not
enabled changes nothing when it is chosen (log 3). -/

namespace Sys2Proof.Machine

/-- The `HOST` delivers a command word (R193): an illegal one faults with `ILLEGAL_CMD` unless the core is already
halted, a legal one is executed, its meaning making the remaining checks. -/
def deliverCommand (cw : CmdWord) (s : State) : Result :=
  match decodeCommand cw with
  | .ok i => exec i s
  | .error _ => .next (if s.faulted then s else raiseFault .illegalCmd cw s)

/-- A step of the agent `HOST` (R230). A register or `DMEM` read changes no state (R34, R54). For a byte of the buffer
while `BUSY = 1` the host has no move (R226, R231). -/
def hostStep (h : HostMove) (s : State) : Result :=
  match h with
  | .command cw => deliverCommand cw s
  | .readReg _ => .next s
  | .readMem a => if ownedByCore s a then .refused (.bufferOwnedByCore a) else .next s
  | .writeMem a v => if ownedByCore s a then .refused (.bufferOwnedByCore a) else memWrite a.toNat v s
  | .reset => .next (applyReset s)

/-- `FETCH` (R153, R154): full buffer, wait for a byte, or read one and let its class act. -/
def fetchStep (s : State) : Result :=
  if hasRoom s then
    match rxPop s with
    | none => .next s
    | some (c, t) => exec (decodeByte c t.idx) t
  else bufferFullStep s

/-- A step of the agent `CORE` (R152): none while `FAULTED = 1` (R194) or in `IDLE`. -/
def coreStep (s : State) : Result :=
  if s.faulted then .next s
  else
    match s.lstate with
    | .idle => .next s
    | .fetch => fetchStep s
    | .peek => peekStep s
    | .eraseSp => eraseSpStep s
    | .eraseBs => eraseBsStep s
    | .term => termStep s

/-- A step of the agent `CHAN_RX` (R134): enabled when `RXEN = 1`. -/
def chanRxStep (b : Byte) (s : State) : Result :=
  if s.rxen then .next (s.withRxq (s.rxq ++ [b])) else .next s

/-- `CHAN_TX` is enabled: `TXEN = 1` and `TXH` holds a byte (R135). -/
def chanTxReady (s : State) : Bool := s.txen && s.txh.isSome

/-- A step of the agent `CHAN_TX` (R135). -/
def chanTxStep (s : State) : Result :=
  match s.txh with
  | some b => if s.txen then .next (s.drainTx b) else .next s
  | none => .next s

/-- The step of the chosen agent. -/
def agentStep (m : Move) (s : State) : Result :=
  match m with
  | .host h => hostStep h s
  | .core => coreStep s
  | .chanRx b => chanRxStep b s
  | .chanTx => chanTxStep s

/-- The `CORE` agent has an enabled step (R152): not halted, not idle, and its wait condition, if any, holds. -/
def coreEnabled (s : State) : Bool :=
  !s.faulted &&
    match s.lstate with
    | .idle => false
    | .fetch => !hasRoom s || rxc s
    | .peek => true
    | .eraseSp => udre s
    | .eraseBs => udre s
    | .term => true

/-- `CHAN_TX` has been passed over as often as it may be (R233, log 2). -/
def chanTxDue (s : State) : Bool := chanTxReady s && s.txWait == 0

/-- `CORE` has been passed over as often as it may be (R233, log 16). -/
def coreDue (s : State) : Bool := coreEnabled s && s.coreWait == 0

/-- An unscripted move passes `CORE` over: it has an enabled step and another agent makes the move. -/
def passesCore (s : State) (m : Move) : Bool := coreEnabled s && m != .core

/-- Which agent steps next: the scripted move; with none scripted, `CHAN_TX` or `CORE` if it is due, else a free move
(R9, R233; log 1, log 2, log 16). -/
def nextMove (s : State) : Move × State :=
  match s.script with
  | m :: rest => (m, s.popMove rest)
  | [] =>
    if chanTxDue s then (.chanTx, s.countTurn (passesCore s .chanTx))
    else if coreDue s then (.core, s.countTurn (passesCore s .core))
    else
      (Config.freeMove s.tick, (s.countTurn (passesCore s (Config.freeMove s.tick))).drawMove)

/-- One step of the interleaving (R60). -/
def takeStep (s : State) : Result := agentStep (nextMove s).1 (nextMove s).2

/-- A command word as the next move of the `HOST` (R70). -/
def State.withCommandNext (s : State) (cw : CmdWord) : State :=
  { s with script := .host (.command cw) :: s.script }

/-- A received byte as the next thing the `CORE` reads (R154): the byte at the head of `RXQ`, a `CORE` step next, and
a line reception in progress in `FETCH`, one byte accepted and room for another (log 7). -/
def State.withByteNext (s : State) (c : Byte) : State :=
  { s with script := .core :: s.script, rxq := c :: s.rxq, faulted := false, lstate := .fetch, busy := true,
           idx := 1#16, lbase := 0#16, lmax := 3#16 }

end Sys2Proof.Machine
end

