-- ==== Sys2Proof/Machine/Step.lean ====
section
/-! DEFINITION. The machine's step, and the placing of an instruction where the next step takes it from. -/

namespace Sys2Proof.Machine

/-- One step of the interleaving of the four agents (00_scope R9, 20_memory R60). -/
def step (s : State) : Host.Outcome State Fault Refusal := Sys2Proof.Machine.takeStep s

/-- The state with an instruction placed where the next step takes it from: a received byte (a table row of at most
eight bits) at the head of `RXQ` with a line in progress, a command word as the host's next move (log 7). -/
def State.withFetchWord (s : State) (nbits w : Nat) : State :=
  if nbits ≤ 8 then s.withByteNext (BitVec.ofNat 8 w) else s.withCommandNext (BitVec.ofNat 64 w)

end Sys2Proof.Machine
end

