-- ==== Sys2Proof/Machine/Assembler.lean ====
section
/-! DEFINITION. The assembler syntax of 30_encoding R85, on characters: one command per line, operands separated by a
comma, numbers decimal or 0x hexadecimal, a comment after a semicolon as in 95_test_vectors §3 (log 14). There
are no pseudo-instructions. -/

namespace Sys2Proof.Machine

/-- The value of a digit in a base, if it is one. -/
def digitValue (base : Nat) (c : Char) : Option Nat :=
  let n := c.toNat
  let v :=
    if 48 ≤ n ∧ n ≤ 57 then n - 48
    else if 65 ≤ n ∧ n ≤ 70 then n - 55
    else if 97 ≤ n ∧ n ≤ 102 then n - 87
    else base
  if v < base then some v else none

/-- Digits read on from a value. -/
def readDigits (base : Nat) : Nat → List Char → Option Nat
  | acc, [] => some acc
  | acc, c :: cs =>
    match digitValue base c with
    | some v => readDigits base (acc * base + v) cs
    | none => none

/-- A number, decimal or 0x hexadecimal (R85). -/
def readNumber : List Char → Option Nat
  | [] => none
  | '0' :: 'x' :: [] => none
  | '0' :: 'x' :: cs => readDigits 16 0 cs
  | cs => readDigits 10 0 cs

/-- A number of a range (R85). -/
def readRange (lo hi : Nat) (cs : List Char) : Option Nat :=
  match readNumber cs with
  | some n => if lo ≤ n ∧ n ≤ hi then some n else none
  | none => none

/-- A frame format `<d><p><s>` (R13, R85). -/
def readFormat : List Char → Option FrameFormat
  | [d, p, s] => do
    let size ← match d with
      | '5' => some (0 : Fin 4)
      | '6' => some 1
      | '7' => some 2
      | '8' => some 3
      | _ => none
    let parity ← match p with
      | 'N' => some Parity.none
      | 'E' => some Parity.even
      | 'O' => some Parity.odd
      | _ => none
    let two ← match s with
      | '1' => some false
      | '2' => some true
      | _ => none
    some ⟨size, two, parity⟩
  | _ => none

/-- Without blanks at either end. -/
def trimBlanks (cs : List Char) : List Char :=
  ((cs.dropWhile (· == ' ')).reverse.dropWhile (· == ' ')).reverse

/-- The two operands of a line, split at its one comma. -/
def splitOperands (cs : List Char) : Option (List Char × List Char) :=
  match cs.dropWhile (· != ',') with
  | _ :: rest =>
    if rest.contains ',' then none else some (trimBlanks (cs.takeWhile (· != ',')), trimBlanks rest)
  | [] => none

/-- The instruction a line of assembler text stands for (R85). -/
def parseLine (line : List Char) : Option Instr :=
  let body := trimBlanks (line.takeWhile (· != ';'))
  let name := body.takeWhile (· != ' ')
  match splitOperands (body.dropWhile (· != ' ')) with
  | none => none
  | some (x, y) =>
    if name = ['C', 'O', 'N', 'F', 'I', 'G', 'U', 'R', 'E'] then
      match readFormat x, readRange 1 4294967295 y with
      | some f, some baud => some (.configure f.dsz f.stp f.parity.code (BitVec.ofNat 32 baud))
      | _, _ => none
    else if name = ['R', 'E', 'C', 'V', '_', 'L', 'I', 'N', 'E'] then
      match readRange 0 65535 x, readRange 1 65535 y with
      | some base, some maxlen => some (.recvLine (BitVec.ofNat 16 maxlen) (BitVec.ofNat 16 base))
      | _, _ => none
    else none

/-- The command word a line of assembler text assembles to (R85). -/
def assemble (line : List Char) : Option CmdWord :=
  (parseLine line).map fun i => wordOfBytes (encode i)

end Sys2Proof.Machine
end

