-- ==== Sys2Proof/Safety.lean ====
section
/-! DEFINITION. What claims are stated in: the invariants of 10_state R39 and the model's own, the ends of a run
(70 R234), and the sequential procedure of 42 R172. -/

namespace Sys2Proof.Machine

/-- `DMEM` of a state reads a byte at an address (none: nothing written there since power-on). -/
def State.byteAt (s : State) (a : Nat) : Option Byte := Memory.read s.dmem a

/-! ### Invariants -/

/-- R39 (1): `BUSY = 1` exactly when `LSTATE ≠ IDLE`. -/
def busyExact (s : State) : Bool := s.busy == (s.lstate != .idle)

/-- R39 (2): `CONFIGURED = 1` implies `TXEN = 1` and `RXEN = 1`. -/
def configuredEnables (s : State) : Bool := !s.configured || (s.txen && s.rxen)

/-- R39 (3): while `LSTATE ≠ IDLE`, `1 ≤ LMAX`, `LBASE + LMAX ≤ 2^16` and `IDX ≤ LMAX − 1`. -/
def lineInBounds (s : State) : Bool :=
  s.lstate == .idle ||
    (1 ≤ s.lmax.toNat && s.lbase.toNat + s.lmax.toNat ≤ 65536 && s.idx.toNat + 1 ≤ s.lmax.toNat)

/-- R39 (4): `COUNT ≤ 2^16 − 2` whenever written. -/
def countInBounds (s : State) : Bool :=
  match s.count with
  | some n => n.toNat ≤ 65534
  | none => true

/-- The four invariants of 10_state R39. -/
abbrev SpecInv (s : State) : Prop :=
  busyExact s = true ∧ configuredEnables s = true ∧ lineInBounds s = true ∧ countInBounds s = true

/-- The fault record is the reset one exactly while no fault has occurred, else a cause of R191 (R29, R191, R192). -/
def faultRecordCoherent (s : State) : Bool :=
  if s.faulted then 1 ≤ s.faultCause.toNat && s.faultCause.toNat ≤ 7
  else s.faultCause == 0#8 && s.faultInfo == 0#64

/-- `DIV` and `MODE` are written exactly when `CONFIGURED = 1` (R28, R34, R110). -/
def configuredWritten (s : State) : Bool := s.configured == s.div.isSome && s.configured == s.mode.isSome

/-- `DIV` has no bit at or above `DIV_W` (R25, R33). -/
def divFits (s : State) : Prop := ∀ d, s.div = some d → d.toNat < 2 ^ Config.params.divW

/-- `MODE` is laid out as R78: bits 0 and 6 are 0, the parity code is never 01, bit 7 is the select bit (R80, R81). -/
def modeLaidOut (s : State) : Prop :=
  ∀ m, s.mode = some m →
    m.getLsbD 0 = false ∧ m.getLsbD 6 = false ∧ m.extractLsb' 4 2 ≠ 0b01#2 ∧
      m.getLsbD 7 = Config.params.hasSelectBit

/-- The invariant of the model: R39 with the canonical memory, a coherent fault record and the latched configuration
laid out as the spec says. -/
structure Inv (s : State) : Prop where
  spec : SpecInv s
  memory : Memory.wf s.dmem = true
  record : faultRecordCoherent s = true
  written : configuredWritten s = true
  div : divFits s
  mode : modeLaidOut s

/-! ### The ends of a run -/

/-- The host issues no further command (R234): no coming move delivers one, neither a scripted one nor a free one that
is still to be drawn (log 1). -/
def noFurtherCommand (s : State) : Prop :=
  (∀ cw, Move.host (.command cw) ∉ s.script) ∧ ∀ n cw, s.tick ≤ n → Config.freeMove n ≠ .host (.command cw)

/-- A state at which a run ends well: `FAULTED = 0`, `LSTATE = IDLE`, and the host issues no further command (R234). -/
def endsWell (s : State) : Prop := s.faulted = false ∧ s.lstate = .idle ∧ noFurtherCommand s

/-- A bad end: `FAULTED = 1` (R234). -/
def endsBadly (s : State) : Bool := s.faulted

/-- Stuck, not ended: `LSTATE ≠ IDLE`, no fault, and no enabled `CORE` step (R197, R234). -/
def stuck (s : State) : Bool := !s.faulted && s.lstate != .idle && !coreEnabled s

/-- The elements that only a command, a `CORE` step or reset changes (R33): everything but the channel, `DMEM` and the
model's own fields. -/
def sameCoreState (s t : State) : Prop :=
  t.div = s.div ∧ t.mode = s.mode ∧ t.txen = s.txen ∧ t.rxen = s.rxen ∧ t.u2x = s.u2x ∧
    t.configured = s.configured ∧ t.busy = s.busy ∧ t.divOvf = s.divOvf ∧ t.faulted = s.faulted ∧
    t.faultCause = s.faultCause ∧ t.faultInfo = s.faultInfo ∧ t.count = s.count ∧ t.lstate = s.lstate ∧
    t.idx = s.idx ∧ t.lbase = s.lbase ∧ t.lmax = s.lmax

/-- What is still to be put out of the erase sequence that an `LSTATE` is in (R161, R162). -/
def eraseEcho : LState → List Byte
  | .idle => []
  | .fetch => []
  | .peek => []
  | .eraseSp => [byteSP, byteBS]
  | .eraseBs => [byteBS]
  | .term => []

/-- Every byte the core has put out for transmission, oldest first: those sent, then the one in `TXH` (R65). -/
def sentStream (s : State) : List Byte := s.txline ++ s.txh.toList

/-! ### The table of `MODE` values -/

/-- The table of 30_encoding R81 for `HAS_SELECT_BIT = false`: `DSZ`, `STP`, `PAR` and the `MODE` value. -/
def modeTable : List (BitVec 2 × BitVec 1 × BitVec 2 × Byte) :=
  [(0, 0, 0b00, 0x00), (0, 0, 0b10, 0x20), (0, 0, 0b11, 0x30),
    (0, 1, 0b00, 0x08), (0, 1, 0b10, 0x28), (0, 1, 0b11, 0x38),
    (1, 0, 0b00, 0x02), (1, 0, 0b10, 0x22), (1, 0, 0b11, 0x32),
    (1, 1, 0b00, 0x0A), (1, 1, 0b10, 0x2A), (1, 1, 0b11, 0x3A),
    (2, 0, 0b00, 0x04), (2, 0, 0b10, 0x24), (2, 0, 0b11, 0x34),
    (2, 1, 0b00, 0x0C), (2, 1, 0b10, 0x2C), (2, 1, 0b11, 0x3C),
    (3, 0, 0b00, 0x06), (3, 0, 0b10, 0x26), (3, 0, 0b11, 0x36),
    (3, 1, 0b00, 0x0E), (3, 1, 0b10, 0x2E), (3, 1, 0b11, 0x3E)]

/-! ### The sequential procedure of R172 -/

/-- What the procedure leaves: `DMEM`, `COUNT`, the bytes it sent, and the input it did not read. -/
structure LineResult where
  dmem : Memory
  count : Nat
  sent : List Byte
  unread : List Byte
  deriving DecidableEq, Repr

/-- The last two lines of R172: the terminator at the write index, and the count. -/
def finishLine (base idx : Nat) (mem : Memory) (sent unread : List Byte) : LineResult :=
  ⟨Memory.write mem (base + idx) byteNUL, idx, sent, unread⟩

/-- R172 on an input all of which has arrived, from a write index, a memory and the bytes sent so far; none where the
procedure blocks because the input has run out. -/
def receiveLine (base lmax : Nat) : Nat → Memory → List Byte → List Byte → Option LineResult
  | idx, mem, sent, [] =>
    if idx + 1 < lmax then none else some (finishLine base idx mem sent [])
  | idx, mem, sent, c :: q =>
    if idx + 1 < lmax then
      if c = byteCR then some (finishLine base idx mem sent q.tail)
      else if c = byteLF then some (finishLine base idx mem sent q)
      else if (c = byteBS ∨ c = byteDEL) ∧ 0 < idx then
        receiveLine base lmax (idx - 1) mem (sent ++ [byteSP, byteBS]) q
      else receiveLine base lmax (idx + 1) (Memory.write mem (base + idx) c) sent q
    else some (finishLine base idx mem sent (c :: q))

/-- A schedule of rounds, in each of which the `CORE` steps and then `CHAN_TX` does. -/
def coreRounds : Nat → List Move
  | 0 => []
  | n + 1 => .core :: .chanTx :: coreRounds n

end Sys2Proof.Machine
end

