-- ==== Sys2Proof/Certificates/Slice0/Obligations.lean ====
section
/-! DEFINITION. The statements for the provers, each formalising rules of the spec named in its docstring. -/

open Sys2Proof Sys2Proof.Machine

/-! ### Encodings -/

/-- Words written out from formats C and L, illegal words, and received bytes (R72, R73, R76, R82) decode as the spec
says. -/
def Obligations.SpecWordsDecode : Prop :=
  decodeCommand 0x0000000025800301#64 = .ok (.configure 3#2 0#1 0b00#2 9600#32) ∧
    decodeCommand 0x0000000025801D01#64 = .ok (.configure 1#2 1#1 0b11#2 9600#32) ∧
    decodeCommand 0x00000100000A0002#64 = .ok (.recvLine 10#16 0x0100#16) ∧
    decodeCommand 0x0000000025800303#64 = .error (.reservedOpcode 0x03#8) ∧
    decodeCommand 0x0000000025802301#64 = .error .reservedBits ∧
    decodeByte 0x0D#8 7#16 = .rxbCr ∧ decodeByte 0x0A#8 0#16 = .rxbLf ∧
    decodeByte 0x08#8 1#16 = .rxbBs ∧ decodeByte 0x7F#8 3#16 = .rxbDel ∧
    decodeByte 0x7F#8 0#16 = .rxbData 0x7F#8 ∧ decodeByte 0x8D#8 1#16 = .rxbData 0x8D#8

/-- Every instruction the decoder can answer is decoded from its encoding, with every operand at every value: no bit
of an encoding is dropped (R70, R72, R73, R82). -/
def Obligations.DecodeOfEncodeIsTheInstruction : Prop :=
  ∀ (i : Instr) (idx : Half), i.wellFormedAt idx = true → decode (i.source idx) (encode i) = .ok i

/-- A legal command word is the encoding of what it decodes to, so each word has one meaning and the word a fault
records is the word delivered (R70, R76, R192). -/
def Obligations.EncodeOfDecodedWordIsTheWord : Prop :=
  ∀ (cw : CmdWord) (i : Instr), decodeCommand cw = .ok i → wordOfBytes (encode i) = cw

/-- R76: which words are illegal, by opcode and reserved bits and equivalently by the rows of the opcode table; and
delivering one to a core that is not halted raises `ILLEGAL_CMD`. -/
def Obligations.IllegalWordsFaultIllegalCmd : Prop :=
  (∀ cw : CmdWord, (¬ ∃ i, decodeCommand cw = .ok i) ↔
      (cw.extractLsb' 0 8 ≠ 0x01#8 ∧ cw.extractLsb' 0 8 ≠ 0x02#8) ∨
        (cw.extractLsb' 0 8 = 0x01#8 ∧ (cw.extractLsb' 13 3 ≠ 0#3 ∨ cw.extractLsb' 48 16 ≠ 0#16)) ∨
        (cw.extractLsb' 0 8 = 0x02#8 ∧ (cw.extractLsb' 8 8 ≠ 0#8 ∨ cw.extractLsb' 48 16 ≠ 0#16))) ∧
    (∀ cw : CmdWord, (∃ i, decodeCommand cw = .ok i) ↔
      (rowConfigure.matches cw = true ∨ rowRecvLine.matches cw = true)) ∧
    ∀ (cw : CmdWord) (s : State), (¬ ∃ i, decodeCommand cw = .ok i) → s.faulted = false →
      hostStep (.command cw) s = .next { s with faultCause := 0x01#8, faultInfo := cw, faulted := true }

/-- R82: the class of a byte read in `FETCH`, rows in order and the first match wins. -/
def Obligations.ReceivedByteClasses : Prop :=
  ∀ (c : Byte) (idx : Half),
    decodeByte c idx =
      if c = 0x0D#8 then .rxbCr
      else if c = 0x0A#8 then .rxbLf
      else if c = 0x08#8 ∧ 0 < idx.toNat then .rxbBs
      else if c = 0x7F#8 ∧ 0 < idx.toNat then .rxbDel
      else .rxbData c

/-- R75: every frame format has exactly one `FMT` encoding, the legal `FMT` values are those encodings, and there are
24 of them. -/
def Obligations.FrameFormatEncodings : Prop :=
  (∀ f g : FrameFormat, f.fmt = g.fmt → f = g) ∧
    (∀ v : Byte, fmtLegal v = true ↔ ∃ f : FrameFormat, f.fmt = v) ∧
    ((List.range 256).filter fun n => fmtLegal (BitVec.ofNat 8 n)).length = 24

/-- R85: the two worked lines assemble to the words it gives, and each kind of line assembles to its command's word
with the operands as written. -/
def Obligations.AssemblerWords : Prop :=
  assemble "CONFIGURE 8E2, 115200".toList = some 0x00000001C2001701#64 ∧
    assemble "RECV_LINE 0x0100, 10".toList = some 0x00000100000A0002#64 ∧
    assemble "CONFIGURE 8E2, 0".toList = none ∧ assemble "RECV_LINE 0x10000, 10".toList = none

/-! ### The mode byte -/

/-- R78, R80: the mode byte an accepted `CONFIGURE` writes, bit by bit, under any parameters. -/
def Obligations.ModeByteLayout : Prop :=
  ∀ (p : Params) (dsz : BitVec 2) (stp : BitVec 1) (par : BitVec 2) (baud : BitVec 32) (s : State),
    s.faulted = false → s.busy = false → par ≠ 0b01#2 → baud ≠ 0#32 →
    ∃ m, (configureWith p dsz stp par baud s).mode = some m ∧
      m.getLsbD 0 = false ∧ m.extractLsb' 1 2 = dsz ∧ m.extractLsb' 3 1 = stp ∧ m.extractLsb' 4 2 = par ∧
      m.getLsbD 6 = false ∧ m.getLsbD 7 = p.hasSelectBit

/-- R108: changing one of `DSZ`, `STP`, `PAR` changes only that field's bits of the mode byte. -/
def Obligations.ModeFieldsIndependent : Prop :=
  ∀ (p : Params) (d d' : BitVec 2) (q q' : BitVec 1) (r r' : BitVec 2),
    (modeByte p d q r ^^^ modeByte p d' q r) &&& 0xF9#8 = 0#8 ∧
      (modeByte p d q r ^^^ modeByte p d q' r) &&& 0xF7#8 = 0#8 ∧
      (modeByte p d q r ^^^ modeByte p d q r') &&& 0xCF#8 = 0#8

/-- R79, R81: distinct formats give distinct mode bytes; bits 0 and 6 are always 0; the parity code 01 never occurs for
a legal format; and the table of values, with 0x80 added when the build has the select bit. -/
def Obligations.ModeByteValues : Prop :=
  (∀ (p : Params) (d d' : BitVec 2) (q q' : BitVec 1) (r r' : BitVec 2),
      modeByte p d q r = modeByte p d' q' r' → d = d' ∧ q = q' ∧ r = r') ∧
    (∀ (p : Params) (d : BitVec 2) (q : BitVec 1) (r : BitVec 2),
      (modeByte p d q r).getLsbD 0 = false ∧ (modeByte p d q r).getLsbD 6 = false ∧
        (r ≠ 0b01#2 → (modeByte p d q r).extractLsb' 4 2 ≠ 0b01#2)) ∧
    ∀ (p : Params) (e : BitVec 2 × BitVec 1 × BitVec 2 × Byte), e ∈ modeTable →
      modeByte p e.1 e.2.1 e.2.2.1 = e.2.2.2 + (if p.hasSelectBit then 0x80#8 else 0x00#8)

/-! ### CONFIGURE -/

/-- R103, R104, R109, R110, R112: an accepted `CONFIGURE` completes in one step, latches the divisor and the speed,
reports an overflow without a fault, writes the mode byte, sets both enables, and writes nothing else. -/
def Obligations.ConfigureCompletes : Prop :=
  ∀ (dsz : BitVec 2) (stp : BitVec 1) (par : BitVec 2) (baud : BitVec 32) (s : State),
    s.faulted = false → s.busy = false → par ≠ 0b01#2 → baud ≠ 0#32 →
    let clk := Config.params.clkFreq
    let w := Config.params.divW
    let d8 := (clk + 8 * baud.toNat - 1) / (8 * baud.toNat) - 1
    let d16 := (clk + 16 * baud.toNat - 1) / (16 * baud.toNat) - 1
    exec (.configure dsz stp par baud) s = .next
      { s with
        div := some (BitVec.ofNat 16 (if d8 ≤ 255 then d8 else d16 % 2 ^ w)),
        u2x := decide (d8 ≤ 255),
        divOvf := decide (¬ d8 ≤ 255 ∧ 2 ^ w ≤ d16),
        mode := some (modeByte Config.params dsz stp par),
        txen := true, rxen := true, configured := true }

/-- R77, R101 (and their order, R100): the parity code 01 raises `ILLEGAL_FMT`; else a baud rate of 0 raises
`BAUD_ZERO`; nothing but the fault record changes. -/
def Obligations.ConfigureOperandFaults : Prop :=
  ∀ (dsz : BitVec 2) (stp : BitVec 1) (par : BitVec 2) (baud : BitVec 32) (s : State),
    s.faulted = false → s.busy = false →
    (par = 0b01#2 → exec (.configure dsz stp par baud) s = .next
      { s with faultCause := 0x02#8, faultInfo := encodeConfigure dsz stp par baud, faulted := true }) ∧
    (par ≠ 0b01#2 → baud = 0#32 → exec (.configure dsz stp par baud) s = .next
      { s with faultCause := 0x03#8, faultInfo := encodeConfigure dsz stp par baud, faulted := true })

/-- R11, R105: `ceil_div(a, b)` is the least natural `q` with `q × b ≥ a`, so divisors are rounded up. -/
def Obligations.CeilDivIsLeast : Prop :=
  ∀ a b : Nat, 1 ≤ b → a ≤ ceilDiv a b * b ∧ ∀ q, a ≤ q * b → ceilDiv a b ≤ q

/-- R106: the operands of the divisor arithmetic stay below the widths it names, and the value latched is never cut
but by `d16 mod 2^DIV_W`: it fits `DIV_W` bits and the register holds it exactly. -/
def Obligations.DivisorArithmeticIsExact : Prop :=
  ∀ (p : Params) (baud : BitVec 32), baud ≠ 0#32 →
    8 * baud.toNat < 2 ^ 35 ∧ 16 * baud.toNat < 2 ^ 36 ∧ p.clkFreq < 2 ^ 32 ∧
      ceilDiv p.clkFreq (8 * baud.toNat) ≤ p.clkFreq ∧ ceilDiv p.clkFreq (16 * baud.toNat) ≤ p.clkFreq ∧
      divisorValue p baud.toNat < 2 ^ p.divW ∧
      (BitVec.ofNat 16 (divisorValue p baud.toNat)).toNat = divisorValue p baud.toNat

/-- R115 items 1, 2 and 6: double speed exactly when `CLK_FREQ ≤ 2048 × BAUD`; a double-speed divisor of 0 exactly
when `CLK_FREQ ≤ 8 × BAUD`. -/
def Obligations.DoubleSpeedThreshold : Prop :=
  ∀ (p : Params) (dsz : BitVec 2) (stp : BitVec 1) (par : BitVec 2) (baud : BitVec 32) (s : State),
    s.faulted = false → s.busy = false → par ≠ 0b01#2 → baud ≠ 0#32 →
    ((configureWith p dsz stp par baud s).u2x = true ↔ p.clkFreq ≤ 2048 * baud.toNat) ∧
      ((configureWith p dsz stp par baud s).div = some 0#16 ∧ (configureWith p dsz stp par baud s).u2x = true ↔
        p.clkFreq ≤ 8 * baud.toNat)

/-- R115 items 3 and 4: in normal speed `d16 ≥ 128`, and `DIV_OVF = 1` exactly when
`CLK_FREQ > 2^DIV_W × 16 × BAUD`. -/
def Obligations.NormalSpeedBounds : Prop :=
  ∀ (p : Params) (dsz : BitVec 2) (stp : BitVec 1) (par : BitVec 2) (baud : BitVec 32) (s : State),
    s.faulted = false → s.busy = false → par ≠ 0b01#2 → baud ≠ 0#32 →
    ((configureWith p dsz stp par baud s).u2x = false → 128 ≤ divisor16 p.clkFreq baud.toNat) ∧
      ((configureWith p dsz stp par baud s).divOvf = true ↔ 2 ^ p.divW * (16 * baud.toNat) < p.clkFreq)

/-- R115 item 5: with no overflow the effective rate of R114 never exceeds the requested rate. R114's formula is general
knowledge of the peripheral, as the spec marks it. -/
def Obligations.EffectiveRateNotAboveRequested : Prop :=
  ∀ (p : Params) (dsz : BitVec 2) (stp : BitVec 1) (par : BitVec 2) (baud : BitVec 32) (s : State),
    s.faulted = false → s.busy = false → par ≠ 0b01#2 → baud ≠ 0#32 →
    (configureWith p dsz stp par baud s).divOvf = false →
    ∃ d, (configureWith p dsz stp par baud s).div = some d ∧
      (p.clkFreq : ℚ) / ((if (configureWith p dsz stp par baud s).u2x then 8 else 16) * (d.toNat + 1)) ≤ baud.toNat

/-- R111: the state after an accepted `CONFIGURE` does not depend on the configuration before it, and the same word a
second time changes nothing. -/
def Obligations.ConfigureOverwrites : Prop :=
  ∀ (dsz : BitVec 2) (stp : BitVec 1) (par : BitVec 2) (baud : BitVec 32) (s : State),
    s.faulted = false → s.busy = false → par ≠ 0b01#2 → baud ≠ 0#32 →
    (∀ (dv : Option Half) (md : Option Byte) (a b c d e : Bool),
      exec (.configure dsz stp par baud)
          { s with div := dv, mode := md, txen := a, rxen := b, u2x := c, configured := d, divOvf := e } =
        exec (.configure dsz stp par baud) s) ∧
    ∃ t, exec (.configure dsz stp par baud) s = .next t ∧ exec (.configure dsz stp par baud) t = .next t

/-! ### RECV_LINE -/

/-- R150: `RECV_LINE` completes for a configured, idle core and a buffer that lies in `DMEM`; `BASE + MAXLEN = 2^16`
is legal. -/
def Obligations.RecvLineCompletes : Prop :=
  ∀ (maxlen base : Half) (s : State),
    s.faulted = false → s.busy = false → s.configured = true → 1 ≤ maxlen.toNat →
    base.toNat + maxlen.toNat ≤ 65536 →
    exec (.recvLine maxlen base) s = .next
      { s with lbase := base, lmax := maxlen, idx := 0#16, lstate := .fetch, busy := true }

/-- R150: the faults of `RECV_LINE` at acceptance, in their order; nothing but the fault record changes. -/
def Obligations.RecvLineOperandFaults : Prop :=
  ∀ (maxlen base : Half) (s : State), s.faulted = false → s.busy = false →
    (s.configured = false → exec (.recvLine maxlen base) s = .next
      { s with faultCause := 0x07#8, faultInfo := encodeRecvLine maxlen base, faulted := true }) ∧
    (s.configured = true → maxlen = 0#16 → exec (.recvLine maxlen base) s = .next
      { s with faultCause := 0x04#8, faultInfo := encodeRecvLine maxlen base, faulted := true }) ∧
    (s.configured = true → maxlen ≠ 0#16 → 65536 < base.toNat + maxlen.toNat →
      exec (.recvLine maxlen base) s = .next
        { s with faultCause := 0x05#8, faultInfo := encodeRecvLine maxlen base, faulted := true })

/-- The frame of the two commands: `CONFIGURE` leaves `BUSY`, `COUNT`, the line registers, the channel and every byte
of `DMEM` (R112); `RECV_LINE` leaves the configuration, `COUNT`, the channel and every byte of `DMEM` (R30, R150); each
leaves either the fault record or everything else (R192). -/
def Obligations.CommandFrame : Prop :=
  ∀ (s t : State),
    (∀ (dsz : BitVec 2) (stp : BitVec 1) (par : BitVec 2) (baud : BitVec 32),
      exec (.configure dsz stp par baud) s = .next t →
      t.busy = s.busy ∧ t.count = s.count ∧ t.lstate = s.lstate ∧ t.idx = s.idx ∧ t.lbase = s.lbase ∧
        t.lmax = s.lmax ∧ t.rxq = s.rxq ∧ t.txh = s.txh ∧ t.txline = s.txline ∧ (∀ a, t.byteAt a = s.byteAt a) ∧
        ((t.faulted = s.faulted ∧ t.faultCause = s.faultCause ∧ t.faultInfo = s.faultInfo) ∨
          (t.div = s.div ∧ t.mode = s.mode ∧ t.txen = s.txen ∧ t.rxen = s.rxen ∧ t.u2x = s.u2x ∧
            t.configured = s.configured ∧ t.divOvf = s.divOvf))) ∧
    (∀ maxlen base : Half, exec (.recvLine maxlen base) s = .next t →
      t.div = s.div ∧ t.mode = s.mode ∧ t.txen = s.txen ∧ t.rxen = s.rxen ∧ t.u2x = s.u2x ∧
        t.configured = s.configured ∧ t.divOvf = s.divOvf ∧ t.count = s.count ∧ t.rxq = s.rxq ∧ t.txh = s.txh ∧
        t.txline = s.txline ∧ (∀ a, t.byteAt a = s.byteAt a) ∧
        ((t.faulted = s.faulted ∧ t.faultCause = s.faultCause ∧ t.faultInfo = s.faultInfo) ∨
          (t.lstate = s.lstate ∧ t.idx = s.idx ∧ t.lbase = s.lbase ∧ t.lmax = s.lmax ∧ t.busy = s.busy)))

/-! ### Received bytes -/

/-- R155, R156: the two terminators complete; nothing is stored or echoed and the index is unchanged, both as
instructions and as the `CORE` step that reads the byte. -/
def Obligations.TerminatorBytesComplete : Prop :=
  ∀ (s : State) (q : List Byte), s.faulted = false → s.lstate = .fetch → s.idx.toNat + 1 < s.lmax.toNat →
    exec .rxbCr s = .next { s with lstate := .peek } ∧
      exec .rxbLf s = .next { s with lstate := .term } ∧
      coreStep { s with rxq := 0x0D#8 :: q } = .next { s with rxq := q, lstate := .peek } ∧
      coreStep { s with rxq := 0x0A#8 :: q } = .next { s with rxq := q, lstate := .term }

/-- R157: a backspace or a delete with `IDX > 0` completes: the index is decremented and the erase sequence is to
follow; the two behave identically. -/
def Obligations.EraseBytesComplete : Prop :=
  ∀ (s : State) (q : List Byte), s.faulted = false → s.lstate = .fetch → s.idx.toNat + 1 < s.lmax.toNat →
    0 < s.idx.toNat →
    exec .rxbBs s = .next { s with idx := BitVec.ofNat 16 (s.idx.toNat - 1), lstate := .eraseSp } ∧
      exec .rxbDel s = .next { s with idx := BitVec.ofNat 16 (s.idx.toNat - 1), lstate := .eraseSp } ∧
      coreStep { s with rxq := 0x08#8 :: q } =
        .next { s with rxq := q, idx := BitVec.ofNat 16 (s.idx.toNat - 1), lstate := .eraseSp } ∧
      coreStep { s with rxq := 0x7F#8 :: q } =
        .next { s with rxq := q, idx := BitVec.ofNat 16 (s.idx.toNat - 1), lstate := .eraseSp }

/-- R158: a data byte completes: it is stored at `LBASE + IDX`, every other byte of `DMEM` reads as before, the index
is advanced, and LRX is back at the top of its loop. -/
def Obligations.DataByteCompletes : Prop :=
  ∀ (c : Byte) (s : State), s.faulted = false → s.lstate = .fetch → s.idx.toNat + 1 < s.lmax.toNat →
    s.lbase.toNat + s.idx.toNat < 65536 →
    ∃ t, exec (.rxbData c) s = .next t ∧
      t = { s with dmem := t.dmem, idx := BitVec.ofNat 16 (s.idx.toNat + 1), lstate := .fetch } ∧
      t.byteAt (s.lbase.toNat + s.idx.toNat) = some c ∧
      ∀ a, a ≠ s.lbase.toNat + s.idx.toNat → t.byteAt a = s.byteAt a

/-- R159: 0x08 or 0x7F read with `IDX = 0` is written to `DMEM[LBASE]`, the index becomes 1, and no erase sequence is
echoed. -/
def Obligations.EraseOnEmptyIsStored : Prop :=
  ∀ (c : Byte) (q : List Byte) (s : State), c = 0x08#8 ∨ c = 0x7F#8 → s.faulted = false → s.lstate = .fetch →
    s.idx = 0#16 → 1 < s.lmax.toNat →
    ∃ t, coreStep { s with rxq := c :: q } = .next t ∧
      t = { s with rxq := q, dmem := t.dmem, idx := 1#16 } ∧
      t.byteAt s.lbase.toNat = some c ∧ ∀ a, a ≠ s.lbase.toNat → t.byteAt a = s.byteAt a

/-- R170: in `FETCH` with room, every byte but `CR`, `LF` and (when `IDX > 0`) `BS` and `DEL` is stored unchanged. -/
def Obligations.EveryOtherByteIsStored : Prop :=
  ∀ (c : Byte) (q : List Byte) (s : State), c ≠ 0x0D#8 → c ≠ 0x0A#8 →
    (0 < s.idx.toNat → c ≠ 0x08#8 ∧ c ≠ 0x7F#8) →
    s.faulted = false → s.lstate = .fetch → s.idx.toNat + 1 < s.lmax.toNat →
    s.lbase.toNat + s.idx.toNat < 65536 →
    ∃ t, coreStep { s with rxq := c :: q } = .next t ∧ t.byteAt (s.lbase.toNat + s.idx.toNat) = some c ∧
      t.idx.toNat = s.idx.toNat + 1 ∧ t.lstate = .fetch ∧ t.rxq = q ∧ t.txh = s.txh ∧ t.txline = s.txline

/-- The frame of the five byte classes: only `LSTATE`, `IDX` and, for a byte that is stored, the byte at `LBASE + IDX`
can change (R155 to R159). -/
def Obligations.ReceivedByteFrame : Prop :=
  ∀ (i : Instr) (s t : State), (i = .rxbCr ∨ i = .rxbLf ∨ i = .rxbBs ∨ i = .rxbDel ∨ ∃ c, i = .rxbData c) →
    exec i s = .next t →
    t = { s with lstate := t.lstate, idx := t.idx, dmem := t.dmem } ∧
      (i = .rxbCr ∨ i = .rxbLf → t.idx = s.idx) ∧
      (∀ a, a ≠ bufAddr s → t.byteAt a = s.byteAt a) ∧
      ((i = .rxbCr ∨ i = .rxbLf ∨ ((i = .rxbBs ∨ i = .rxbDel) ∧ 0 < s.idx.toNat)) →
        ∀ a, t.byteAt a = s.byteAt a)

/-! ### The other steps of LRX -/

/-- R151, R153: with the buffer full the top of the loop ends the line and reads no byte. -/
def Obligations.FullBufferEndsLine : Prop :=
  ∀ s : State, s.faulted = false → s.lstate = .fetch → s.lmax.toNat - 1 ≤ s.idx.toNat →
    coreStep s = .next { s with lstate := .term }

/-- R160: the peek never waits; it discards one byte if one has arrived, whatever it is, and goes to `TERM`. -/
def Obligations.PeekDiscardsOneByte : Prop :=
  ∀ s : State, s.faulted = false → s.lstate = .peek →
    (s.rxq = [] → coreStep s = .next { s with lstate := .term }) ∧
      ∀ c q, s.rxq = c :: q → coreStep s = .next { s with rxq := q, lstate := .term }

/-- R161, R162: the two erase steps put `SP` and then `BS` in an empty `TXH` and go on, and wait, changing nothing,
while `TXH` is full. That a step which has to wait answers the same state is the model's choice (log 3). How long
`CHAN_TX` may then be passed over is free (log 2), so the statement says nothing of it. -/
def Obligations.EraseSequenceSteps : Prop :=
  ∀ s : State, s.faulted = false →
    (s.lstate = .eraseSp → s.txh = none → ∃ t, coreStep s = .next t ∧
      t = { s with txh := some 0x20#8, lstate := .eraseBs, txWait := t.txWait }) ∧
    (s.lstate = .eraseBs → s.txh = none → ∃ t, coreStep s = .next t ∧
      t = { s with txh := some 0x08#8, lstate := .fetch, txWait := t.txWait }) ∧
    (s.lstate = .eraseSp ∨ s.lstate = .eraseBs → s.txh ≠ none → coreStep s = .next s)

/-- R163: the terminator is written at `LBASE + IDX`, `COUNT` is the index, `LSTATE` is `IDLE` and `BUSY` is 0, all in
one step, and every other byte of `DMEM` reads as before. -/
def Obligations.TermPublishesLine : Prop :=
  ∀ s : State, s.faulted = false → s.lstate = .term → s.lbase.toNat + s.idx.toNat < 65536 →
    ∃ t, coreStep s = .next t ∧
      t = { s with dmem := t.dmem, count := some s.idx, lstate := .idle, busy := false } ∧
      t.byteAt (s.lbase.toNat + s.idx.toNat) = some 0x00#8 ∧
      ∀ a, a ≠ s.lbase.toNat + s.idx.toNat → t.byteAt a = s.byteAt a

/-- R136, R197: a `FETCH` step with nothing received and an erase step with `TXH` full change nothing and record
nothing. That a step which has to wait answers the same state is the model's choice (log 3). -/
def Obligations.WaitingStepsChangeNothing : Prop :=
  ∀ s : State,
    (s.lstate = .fetch → s.idx.toNat + 1 < s.lmax.toNat → s.rxq = [] → coreStep s = .next s) ∧
      (s.lstate = .eraseSp ∨ s.lstate = .eraseBs → s.txh ≠ none → coreStep s = .next s)

/-- R152: a `CORE` step acts exactly where it is enabled; where it is not, the state is unchanged, which is the model's
choice (log 3). -/
def Obligations.CoreStepActsExactlyWhenEnabled : Prop :=
  ∀ s : State, coreEnabled s = true ↔ coreStep s ≠ .next s

/-! ### The channel -/

/-- R131, R134, R135, R138: `CHAN_RX` appends its byte exactly when `RXEN = 1`, `CHAN_TX` moves the byte of `TXH` to the
line exactly when `TXEN = 1` and there is one, whether or not the core has faulted. That an agent which is not enabled
answers the same state is the model's choice (log 3). -/
def Obligations.ChannelAgentSteps : Prop :=
  ∀ (s : State) (b : Byte),
    (s.rxen = true → agentStep (.chanRx b) s = .next { s with rxq := s.rxq ++ [b] }) ∧
      (s.rxen = false → agentStep (.chanRx b) s = .next s) ∧
      (s.txen = true → s.txh = some b →
        agentStep .chanTx s = .next { s with txline := s.txline ++ [b], txh := none }) ∧
      (s.txen = false ∨ s.txh = none → agentStep .chanTx s = .next s)

/-- R164, R65: over every step, the bytes put out for transmission change only by `SP` in `ERASE_SP`, by `BS` in
`ERASE_BS`, or by reset. -/
def Obligations.OnlyEraseBytesAreSent : Prop :=
  ∀ s t : State, step s = .next t →
    sentStream t = sentStream s ∨
      ((nextMove s).1 = .core ∧ s.lstate = .eraseSp ∧ sentStream t = sentStream s ++ [0x20#8]) ∨
      ((nextMove s).1 = .core ∧ s.lstate = .eraseBs ∧ sentStream t = sentStream s ++ [0x08#8]) ∨
      ((nextMove s).1 = .host .reset ∧ sentStream t = [])

/-- R65, R131, R168: over every step, `RXQ` gains a byte at its end from `CHAN_RX` only, loses its oldest byte to a
`CORE` step in `FETCH` or `PEEK` only, and is emptied by reset only. -/
def Obligations.ReceiveQueueIsFifo : Prop :=
  ∀ s t : State, step s = .next t →
    t.rxq = s.rxq ∨
      (∃ b, (nextMove s).1 = .chanRx b ∧ s.rxen = true ∧ t.rxq = s.rxq ++ [b]) ∨
      ((nextMove s).1 = .core ∧ (s.lstate = .fetch ∨ s.lstate = .peek) ∧ t.rxq = s.rxq.tail) ∨
      ((nextMove s).1 = .host .reset ∧ t.rxq = [])

/-- R134, R135: the two channel agents and LRX read neither `DIV`, `U2X`, `MODE` nor `DIV_OVF`: their steps are the
same under any values of those, which they leave as they are. -/
def Obligations.ChannelIgnoresDivisorAndMode : Prop :=
  ∀ (s t : State) (mv : Move) (dv : Option Half) (md : Option Byte) (u ovf : Bool),
    (mv = .core ∨ mv = .chanTx ∨ ∃ b, mv = .chanRx b) → agentStep mv s = .next t →
    t.div = s.div ∧ t.mode = s.mode ∧ t.u2x = s.u2x ∧ t.divOvf = s.divOvf ∧
      agentStep mv { s with div := dv, mode := md, u2x := u, divOvf := ovf } =
        .next { t with div := dv, mode := md, u2x := u, divOvf := ovf }

/-- R233: `CHAN_TX` is weakly fair. From a state in which it is enabled and no move is scripted, however the free moves
fall, within a bounded number of steps the byte of `TXH` is on the line (or a reset has discarded it), unless the host
first makes an access that the model refuses, having no move for it (log 10). That the number of moves is the field
`txWait`, set when the byte is put there, is the model's choice (log 2); its value is free. -/
def Obligations.TransmitEventuallyDrains : Prop :=
  ∀ (s : State) (b : Byte), Inv s → s.script = [] → s.txen = true → s.txh = some b →
    ∃ k, k ≤ s.txWait + 1 ∧
      ((∃ t, core.run k s = .next t ∧ t.txh = none ∧ (t.txline = s.txline ++ [b] ∨ t.txline = [])) ∨
        ∃ a, core.run k s = .refused (.bufferOwnedByCore a))

/-! ### Faults -/

/-- R193: acceptance of a command word, every check in order, and the cause recorded for the first that fails. -/
def Obligations.AcceptanceOrder : Prop :=
  ∀ (cw : CmdWord) (s : State),
    let bad := fun cause : Byte =>
      (.next { s with faultCause := cause, faultInfo := cw, faulted := true } : Result)
    (s.faulted = true → hostStep (.command cw) s = .next s) ∧
    (s.faulted = false → (¬ ∃ i, decodeCommand cw = .ok i) → hostStep (.command cw) s = bad 0x01#8) ∧
    (s.faulted = false → (∃ i, decodeCommand cw = .ok i) →
      (s.busy = true → hostStep (.command cw) s = bad 0x06#8) ∧
      (s.busy = false → cw.extractLsb' 0 8 = 0x01#8 →
        (cw.extractLsb' 11 2 = 0b01#2 → hostStep (.command cw) s = bad 0x02#8) ∧
        (cw.extractLsb' 11 2 ≠ 0b01#2 → cw.extractLsb' 16 32 = 0#32 → hostStep (.command cw) s = bad 0x03#8) ∧
        (cw.extractLsb' 11 2 ≠ 0b01#2 → cw.extractLsb' 16 32 ≠ 0#32 → hostStep (.command cw) s =
          .next (configureBody Config.params (cw.extractLsb' 8 2) (cw.extractLsb' 10 1) (cw.extractLsb' 11 2)
            (cw.extractLsb' 16 32) s))) ∧
      (s.busy = false → cw.extractLsb' 0 8 = 0x02#8 →
        let maxlen := cw.extractLsb' 16 16
        let base := cw.extractLsb' 32 16
        (s.configured = false → hostStep (.command cw) s = bad 0x07#8) ∧
        (s.configured = true → maxlen = 0#16 → hostStep (.command cw) s = bad 0x04#8) ∧
        (s.configured = true → maxlen ≠ 0#16 → 65536 < base.toNat + maxlen.toNat →
          hostStep (.command cw) s = bad 0x05#8) ∧
        (s.configured = true → maxlen ≠ 0#16 → base.toNat + maxlen.toNat ≤ 65536 →
          hostStep (.command cw) s =
            .next { s with lbase := base, lmax := maxlen, idx := 0#16, lstate := .fetch, busy := true })))

/-- R190, R192: over every step, a fault arises only from a command word the host delivers, and leaves the state as it
was before the command but for the fault record, which holds a cause of R191 and the whole word. -/
def Obligations.FaultsArePrecise : Prop :=
  ∀ s t : State, s.faulted = false → step s = .next t → t.faulted = true →
    ∃ (cw : CmdWord) (cause : FaultCause), (nextMove s).1 = .host (.command cw) ∧
      t = { (nextMove s).2 with faultCause := cause.code, faultInfo := cw, faulted := true }

/-- R194, R195, R196: in a faulted state no step but reset changes the core: no `CORE` step, no command has an effect,
and the first fault's record stands. -/
def Obligations.FaultedCoreIsHalted : Prop :=
  ∀ s t : State, s.faulted = true → step s = .next t →
    (nextMove s).1 = .host .reset ∨
      (sameCoreState s t ∧
        ((nextMove s).1 = .core ∨ (∃ cw, (nextMove s).1 = .host (.command cw)) → t = (nextMove s).2))

/-! ### Registers, reset and host memory -/

/-- R27, R28, R31, R33, R34: the registers by number, their bits, no value for an unwritten register or another
number, and no effect of a read on the state. That the port's values are zero-extended to 64 bits is the model's
choice (log 8). -/
def Obligations.RegisterReadPort : Prop :=
  ∀ s : State,
    readReg s 0 = s.div.map (BitVec.setWidth 64) ∧ readReg s 1 = s.mode.map (BitVec.setWidth 64) ∧
      (∃ v, readReg s 2 = some v ∧ v.getLsbD 0 = s.txen ∧ v.getLsbD 1 = s.rxen ∧ v.getLsbD 2 = s.u2x ∧
        ∀ i, 3 ≤ i → v.getLsbD i = false) ∧
      (∃ v, readReg s 3 = some v ∧ v.getLsbD 0 = s.configured ∧ v.getLsbD 1 = s.busy ∧ v.getLsbD 2 = s.divOvf ∧
        v.getLsbD 3 = s.faulted ∧ ∀ i, 4 ≤ i → v.getLsbD i = false) ∧
      readReg s 4 = some (s.faultCause.setWidth 64) ∧ readReg s 5 = some s.faultInfo ∧
      readReg s 6 = s.count.map (BitVec.setWidth 64) ∧
      (∃ v, readReg s 7 = some v ∧ v.getLsbD 0 = s.txh.isNone ∧ v.getLsbD 1 = decide (s.rxq ≠ []) ∧
        ∀ i, 2 ≤ i → v.getLsbD i = false) ∧
      (∀ n, 8 ≤ n → readReg s n = none) ∧ ∀ n, hostStep (.readReg n) s = .next s

/-- R38 and R33: the reset value of every element, and what the registers read at reset. -/
def Obligations.ResetValues : Prop :=
  State.reset.div = none ∧ State.reset.mode = none ∧ State.reset.count = none ∧
    readReg State.reset 0 = none ∧ readReg State.reset 1 = none ∧ readReg State.reset 6 = none ∧
    readReg State.reset 2 = some 0x00#64 ∧ readReg State.reset 3 = some 0x00#64 ∧
    readReg State.reset 4 = some 0x00#64 ∧ readReg State.reset 5 = some 0#64 ∧
    readReg State.reset 7 = some 0x01#64 ∧ State.reset.lstate = .idle ∧ State.reset.idx = 0#16 ∧
    State.reset.lbase = 0#16 ∧ State.reset.lmax = 0#16 ∧ State.reset.rxq = [] ∧ State.reset.txh = none ∧
    State.reset.txline = []

/-- R220, R221: a reset step from any state, also a busy or faulted one, sets every element to its reset value and
leaves every byte of `DMEM`. -/
def Obligations.ResetStep : Prop :=
  ∀ s : State, ∃ t, hostStep .reset s = .next t ∧
    sameCoreState State.reset t ∧ t.rxq = [] ∧ t.txh = none ∧ t.txline = [] ∧ ∀ a, t.byteAt a = s.byteAt a

/-- R226, R230: outside the buffer, or while `BUSY = 0`, the host's write changes the byte it names, which it then
reads, and nothing else; for a byte of the buffer while `BUSY = 1` it has no move, to write or to read. That such an
access is refused by name is the model's way to have no move for it (log 10). -/
def Obligations.HostMemoryAccess : Prop :=
  ∀ (s : State) (a : Half) (v : Byte),
    ((s.busy = true ∧ s.lbase.toNat ≤ a.toNat ∧ a.toNat < s.lbase.toNat + s.lmax.toNat) →
      hostStep (.writeMem a v) s = .refused (.bufferOwnedByCore a) ∧
        hostStep (.readMem a) s = .refused (.bufferOwnedByCore a)) ∧
    (¬ (s.busy = true ∧ s.lbase.toNat ≤ a.toNat ∧ a.toNat < s.lbase.toNat + s.lmax.toNat) →
      hostStep (.readMem a) s = .next s ∧
      ∃ t, hostStep (.writeMem a v) s = .next t ∧ t = { s with dmem := t.dmem } ∧ hostReadByte t a = v ∧
        ∀ b : Half, b ≠ a → hostReadByte t b = hostReadByte s b)

/-! ### The step -/

/-- A delivered command word that decodes is executed: the step with that move next is `exec` of the instruction, on
the state from which the move has been taken (R70, R193). -/
def Obligations.StepRunsDeliveredCommand : Prop :=
  ∀ (cw : CmdWord) (i : Instr) (rest : List Move) (s : State), decodeCommand cw = .ok i →
    s.script = .host (.command cw) :: rest → step s = exec i { s with script := rest }

/-- A byte LRX reads is executed: with a `CORE` step next in `FETCH` and room in the buffer, the step is `exec` of the
class of the oldest byte received, on the state from which the byte has been read (R152, R154). -/
def Obligations.StepRunsReadByte : Prop :=
  ∀ (c : Byte) (q : List Byte) (rest : List Move) (s : State), s.script = .core :: rest → s.rxq = c :: q →
    s.faulted = false → s.lstate = .fetch → s.idx.toNat + 1 < s.lmax.toNat →
    step s = exec (decodeByte c s.idx) { s with script := rest, rxq := q }

/-- R9: any agent may step next: whatever the state, for each move there is a state, the same but for the scripted
moves, whose next step is that agent's. That the coming moves stand in the state is the model's choice (log 1). -/
def Obligations.AnyAgentMayStepNext : Prop :=
  ∀ (s : State) (m : Move) (rest : List Move),
    step { s with script := m :: rest } = agentStep m { s with script := rest }

/-! ### Rules of the whole machine -/

/-- The invariant of the model holds at reset (R38, R39). -/
def Obligations.InvariantAtReset : Prop := Inv State.reset

/-- R39: every step of every agent, from every state within the invariant, keeps it. -/
def Obligations.EveryStepKeepsInvariant : Prop :=
  ∀ s t : State, Inv s → step s = .next t → Inv t

/-- Every step keeps the canonical form of `DMEM`, from every state that has it. The form is the model's own (log 5). -/
def Obligations.EveryStepKeepsMemoryForm : Prop :=
  ∀ s t : State, Memory.wf s.dmem = true → step s = .next t → Memory.wf t.dmem = true

/-- Within R39 no step stops with a fault, and a step is refused only where the host touches the busy buffer
(R150, R169, R226). That such an access is refused by name is the model's way to have no move for it (log 10). -/
def Obligations.NoStopWithinInvariant : Prop :=
  ∀ s : State, SpecInv s →
    (∀ e, step s ≠ .fault e) ∧
      ∀ r, step s = .refused r → ∃ a : Half, r = .bufferOwnedByCore a ∧ s.busy = true ∧
        s.lbase.toNat ≤ a.toNat ∧ a.toNat < s.lbase.toNat + s.lmax.toNat ∧
        ((nextMove s).1 = .host (.readMem a) ∨ ∃ v, (nextMove s).1 = .host (.writeMem a v))

/-- R56: the core never reads `DMEM`, nor does any other agent's step depend on it: under other contents of `DMEM` every
step gives the same state but for `DMEM`, and there the same bytes are written: each byte is either left alone in both,
or has the same value in both after, at the one address the step stores to. -/
def Obligations.NoStepReadsMemory : Prop :=
  ∀ (s t : State) (mv : Move) (m : Memory), agentStep mv s = .next t →
    ∃ m', agentStep mv { s with dmem := m } = .next { t with dmem := m' } ∧
      ∀ a, (Memory.read m' a = Memory.read m a ∧ t.byteAt a = s.byteAt a) ∨
        (Memory.read m' a = t.byteAt a ∧
          ((mv = .core ∧ a = bufAddr s) ∨ ∃ h v, mv = .host (.writeMem h v) ∧ a = h.toNat ∧ t.byteAt a = some v))

/-- R50, R55, R226: over every step, a byte of `DMEM` changes only by a `CORE` step inside `[LBASE, LBASE + LMAX)`, or
by a host write of that byte outside a busy buffer. -/
def Obligations.MemoryChangesOnlyInsideBuffer : Prop :=
  ∀ (s t : State) (a : Nat), SpecInv s → step s = .next t → t.byteAt a ≠ s.byteAt a →
    ((nextMove s).1 = .core ∧ s.busy = true ∧ s.lbase.toNat ≤ a ∧ a < s.lbase.toNat + s.lmax.toNat) ∨
      ∃ (h : Half) (v : Byte), (nextMove s).1 = .host (.writeMem h v) ∧ a = h.toNat ∧
        ¬ (s.busy = true ∧ s.lbase.toNat ≤ a ∧ a < s.lbase.toNat + s.lmax.toNat)

/-- R25, R26, R27: over every step, `DIV`, `MODE` and `CTRL` change only by a delivered `CONFIGURE` or by reset. -/
def Obligations.OnlyConfigureWritesConfiguration : Prop :=
  ∀ s t : State, step s = .next t →
    (t.div = s.div ∧ t.mode = s.mode ∧ ctrlByte t = ctrlByte s) ∨
      (∃ cw dsz stp par baud, (nextMove s).1 = .host (.command cw) ∧
        decodeCommand cw = .ok (.configure dsz stp par baud)) ∨
      (nextMove s).1 = .host .reset

/-- R28: over every step, each bit of `STATUS` changes only by what its row of R28 names: `CONFIGURED` is set by a
`CONFIGURE`; `BUSY` is set by an accepted `RECV_LINE` and cleared by the `TERM` step; `DIV_OVF` changes by a `CONFIGURE`;
`FAULTED` is set by a command word; and reset clears all four. -/
def Obligations.StatusBitWriters : Prop :=
  ∀ s t : State, step s = .next t →
    ((nextMove s).1 = .host .reset →
      t.configured = false ∧ t.busy = false ∧ t.divOvf = false ∧ t.faulted = false) ∧
    ((nextMove s).1 ≠ .host .reset →
      (t.configured = s.configured ∨ (t.configured = true ∧ ∃ cw dsz stp par baud,
        (nextMove s).1 = .host (.command cw) ∧ decodeCommand cw = .ok (.configure dsz stp par baud))) ∧
      (t.busy = s.busy ∨ (t.busy = true ∧ t.lstate = .fetch ∧ ∃ cw maxlen base,
          (nextMove s).1 = .host (.command cw) ∧ decodeCommand cw = .ok (.recvLine maxlen base)) ∨
        (t.busy = false ∧ (nextMove s).1 = .core ∧ s.lstate = .term ∧ t.lstate = .idle)) ∧
      (t.divOvf = s.divOvf ∨ ∃ cw dsz stp par baud,
        (nextMove s).1 = .host (.command cw) ∧ decodeCommand cw = .ok (.configure dsz stp par baud)) ∧
      (t.faulted = s.faulted ∨ (t.faulted = true ∧ ∃ cw, (nextMove s).1 = .host (.command cw))))

/-- R30, R229: over every step, `COUNT` changes only by the `TERM` step, which gives it the index as `BUSY` falls, or by
reset, which leaves it unwritten. -/
def Obligations.CountWrittenOnlyByTerm : Prop :=
  ∀ s t : State, step s = .next t →
    t.count = s.count ∨
      ((nextMove s).1 = .core ∧ s.lstate = .term ∧ t.count = some s.idx ∧ t.busy = false ∧ t.lstate = .idle) ∨
      ((nextMove s).1 = .host .reset ∧ t.count = none)

/-! ### The line as a whole -/

/-- R172: from the top of the loop, with the input already received, rounds of a `CORE` and a `CHAN_TX` step end the
line exactly as the sequential procedure does: the same `DMEM`, `COUNT`, echo and unread input, with the configuration
unchanged and no fault; a byte that still stands in `TXH` from the line before is sent first. The run ends well there
exactly if the host issues no further command (R234), of which the free moves leave open whether it does. That the
moves stand in the state, and that a `CHAN_TX` move with nothing to send changes nothing, is the model's choice (log
1, log 3). -/
def Obligations.LineReceptionRefinesProcedure : Prop :=
  ∀ (s : State) (r : LineResult), SpecInv s → s.faulted = false → s.lstate = .fetch → s.txen = true →
    receiveLine s.lbase.toNat s.lmax.toNat s.idx.toNat s.dmem [] s.rxq = some r →
    ∃ n t, core.run (2 * n) { s with script := coreRounds n } = .next t ∧
      t.dmem = r.dmem ∧ t.count = some (BitVec.ofNat 16 r.count) ∧ r.count ≤ s.lmax.toNat - 1 ∧
      sentStream t = sentStream s ++ r.sent ∧ t.rxq = r.unread ∧ t.txh = none ∧ t.lstate = .idle ∧
      t.busy = false ∧ t.faulted = false ∧ t.div = s.div ∧ t.mode = s.mode ∧ t.configured = s.configured ∧
      (endsWell t ↔ noFurtherCommand { s with script := [] })

/-- R171, R197, R234: where the procedure blocks because the input has run out, the same rounds bring the line to a
stuck state, still busy, with no count and no fault recorded: not an end. What stood in `TXH` has been sent by then,
with whatever echo follows it. That the moves stand in the state, and that a move of an agent with no step changes
nothing, is the model's choice (log 1, log 3). -/
def Obligations.LineReceptionBlocksForInput : Prop :=
  ∀ s : State, SpecInv s → s.faulted = false → s.lstate = .fetch → s.txen = true →
    receiveLine s.lbase.toNat s.lmax.toNat s.idx.toNat s.dmem [] s.rxq = none →
    ∃ n t, core.run (2 * n) { s with script := coreRounds n } = .next t ∧
      stuck t = true ∧ ¬ endsWell t ∧ t.rxq = [] ∧ t.busy = true ∧ t.count = s.count ∧ t.faulted = false ∧
      t.txh = none ∧ sentStream s <+: t.txline

/-- R233, 93 I5: an erase echo always completes. From a state in an erase step with no move scripted, however the free
moves fall, after some number of steps what is left of the echo is on the line behind everything sent before, unless the
host first delivers a command (which faults, as `BUSY = 1`), resets the core, or makes an access that the model refuses
(log 10). That `CHAN_TX` and `CORE` are passed over only so often is the model's way to be fair to them (log 2, log 16);
how often is free. -/
def Obligations.EraseEchoCompletes : Prop :=
  ∀ s : State, Inv s → s.script = [] → s.faulted = false → s.txen = true →
    s.lstate = .eraseSp ∨ s.lstate = .eraseBs →
    ∃ k,
      (∃ t, core.run k s = .next t ∧
        ((t.txline = sentStream s ++ eraseEcho s.lstate ∧ t.txh = none) ∨ t.faulted = true ∨
          sameCoreState State.reset t)) ∨
      ∃ a, core.run k s = .refused (.bufferOwnedByCore a)
end

