-- ==== Sys2Proof/Laws/State.lean ====
section
/-! SUPPORT. What each named update does to each field of the state: one lemma per field per update. -/

namespace Sys2Proof.Machine

variable (s : State)


/-! ### State.withLState -/

@[simp] theorem State.withLState_div (l : LState) : (s.withLState l).div = s.div := rfl
@[simp] theorem State.withLState_mode (l : LState) : (s.withLState l).mode = s.mode := rfl
@[simp] theorem State.withLState_txen (l : LState) : (s.withLState l).txen = s.txen := rfl
@[simp] theorem State.withLState_rxen (l : LState) : (s.withLState l).rxen = s.rxen := rfl
@[simp] theorem State.withLState_u2x (l : LState) : (s.withLState l).u2x = s.u2x := rfl
@[simp] theorem State.withLState_configured (l : LState) : (s.withLState l).configured = s.configured := rfl
@[simp] theorem State.withLState_busy (l : LState) : (s.withLState l).busy = s.busy := rfl
@[simp] theorem State.withLState_divOvf (l : LState) : (s.withLState l).divOvf = s.divOvf := rfl
@[simp] theorem State.withLState_faulted (l : LState) : (s.withLState l).faulted = s.faulted := rfl
@[simp] theorem State.withLState_faultCause (l : LState) : (s.withLState l).faultCause = s.faultCause := rfl
@[simp] theorem State.withLState_faultInfo (l : LState) : (s.withLState l).faultInfo = s.faultInfo := rfl
@[simp] theorem State.withLState_count (l : LState) : (s.withLState l).count = s.count := rfl
@[simp] theorem State.withLState_lstate (l : LState) : (s.withLState l).lstate = l := rfl
@[simp] theorem State.withLState_idx (l : LState) : (s.withLState l).idx = s.idx := rfl
@[simp] theorem State.withLState_lbase (l : LState) : (s.withLState l).lbase = s.lbase := rfl
@[simp] theorem State.withLState_lmax (l : LState) : (s.withLState l).lmax = s.lmax := rfl
@[simp] theorem State.withLState_rxq (l : LState) : (s.withLState l).rxq = s.rxq := rfl
@[simp] theorem State.withLState_txh (l : LState) : (s.withLState l).txh = s.txh := rfl
@[simp] theorem State.withLState_txline (l : LState) : (s.withLState l).txline = s.txline := rfl
@[simp] theorem State.withLState_dmem (l : LState) : (s.withLState l).dmem = s.dmem := rfl
@[simp] theorem State.withLState_script (l : LState) : (s.withLState l).script = s.script := rfl
@[simp] theorem State.withLState_tick (l : LState) : (s.withLState l).tick = s.tick := rfl
@[simp] theorem State.withLState_txWait (l : LState) : (s.withLState l).txWait = s.txWait := rfl
@[simp] theorem State.withLState_coreWait (l : LState) : (s.withLState l).coreWait = s.coreWait := rfl

/-! ### State.withIdx -/

@[simp] theorem State.withIdx_div (i : Half) : (s.withIdx i).div = s.div := rfl
@[simp] theorem State.withIdx_mode (i : Half) : (s.withIdx i).mode = s.mode := rfl
@[simp] theorem State.withIdx_txen (i : Half) : (s.withIdx i).txen = s.txen := rfl
@[simp] theorem State.withIdx_rxen (i : Half) : (s.withIdx i).rxen = s.rxen := rfl
@[simp] theorem State.withIdx_u2x (i : Half) : (s.withIdx i).u2x = s.u2x := rfl
@[simp] theorem State.withIdx_configured (i : Half) : (s.withIdx i).configured = s.configured := rfl
@[simp] theorem State.withIdx_busy (i : Half) : (s.withIdx i).busy = s.busy := rfl
@[simp] theorem State.withIdx_divOvf (i : Half) : (s.withIdx i).divOvf = s.divOvf := rfl
@[simp] theorem State.withIdx_faulted (i : Half) : (s.withIdx i).faulted = s.faulted := rfl
@[simp] theorem State.withIdx_faultCause (i : Half) : (s.withIdx i).faultCause = s.faultCause := rfl
@[simp] theorem State.withIdx_faultInfo (i : Half) : (s.withIdx i).faultInfo = s.faultInfo := rfl
@[simp] theorem State.withIdx_count (i : Half) : (s.withIdx i).count = s.count := rfl
@[simp] theorem State.withIdx_lstate (i : Half) : (s.withIdx i).lstate = s.lstate := rfl
@[simp] theorem State.withIdx_idx (i : Half) : (s.withIdx i).idx = i := rfl
@[simp] theorem State.withIdx_lbase (i : Half) : (s.withIdx i).lbase = s.lbase := rfl
@[simp] theorem State.withIdx_lmax (i : Half) : (s.withIdx i).lmax = s.lmax := rfl
@[simp] theorem State.withIdx_rxq (i : Half) : (s.withIdx i).rxq = s.rxq := rfl
@[simp] theorem State.withIdx_txh (i : Half) : (s.withIdx i).txh = s.txh := rfl
@[simp] theorem State.withIdx_txline (i : Half) : (s.withIdx i).txline = s.txline := rfl
@[simp] theorem State.withIdx_dmem (i : Half) : (s.withIdx i).dmem = s.dmem := rfl
@[simp] theorem State.withIdx_script (i : Half) : (s.withIdx i).script = s.script := rfl
@[simp] theorem State.withIdx_tick (i : Half) : (s.withIdx i).tick = s.tick := rfl
@[simp] theorem State.withIdx_txWait (i : Half) : (s.withIdx i).txWait = s.txWait := rfl
@[simp] theorem State.withIdx_coreWait (i : Half) : (s.withIdx i).coreWait = s.coreWait := rfl

/-! ### State.withRxq -/

@[simp] theorem State.withRxq_div (q : List Byte) : (s.withRxq q).div = s.div := rfl
@[simp] theorem State.withRxq_mode (q : List Byte) : (s.withRxq q).mode = s.mode := rfl
@[simp] theorem State.withRxq_txen (q : List Byte) : (s.withRxq q).txen = s.txen := rfl
@[simp] theorem State.withRxq_rxen (q : List Byte) : (s.withRxq q).rxen = s.rxen := rfl
@[simp] theorem State.withRxq_u2x (q : List Byte) : (s.withRxq q).u2x = s.u2x := rfl
@[simp] theorem State.withRxq_configured (q : List Byte) : (s.withRxq q).configured = s.configured := rfl
@[simp] theorem State.withRxq_busy (q : List Byte) : (s.withRxq q).busy = s.busy := rfl
@[simp] theorem State.withRxq_divOvf (q : List Byte) : (s.withRxq q).divOvf = s.divOvf := rfl
@[simp] theorem State.withRxq_faulted (q : List Byte) : (s.withRxq q).faulted = s.faulted := rfl
@[simp] theorem State.withRxq_faultCause (q : List Byte) : (s.withRxq q).faultCause = s.faultCause := rfl
@[simp] theorem State.withRxq_faultInfo (q : List Byte) : (s.withRxq q).faultInfo = s.faultInfo := rfl
@[simp] theorem State.withRxq_count (q : List Byte) : (s.withRxq q).count = s.count := rfl
@[simp] theorem State.withRxq_lstate (q : List Byte) : (s.withRxq q).lstate = s.lstate := rfl
@[simp] theorem State.withRxq_idx (q : List Byte) : (s.withRxq q).idx = s.idx := rfl
@[simp] theorem State.withRxq_lbase (q : List Byte) : (s.withRxq q).lbase = s.lbase := rfl
@[simp] theorem State.withRxq_lmax (q : List Byte) : (s.withRxq q).lmax = s.lmax := rfl
@[simp] theorem State.withRxq_rxq (q : List Byte) : (s.withRxq q).rxq = q := rfl
@[simp] theorem State.withRxq_txh (q : List Byte) : (s.withRxq q).txh = s.txh := rfl
@[simp] theorem State.withRxq_txline (q : List Byte) : (s.withRxq q).txline = s.txline := rfl
@[simp] theorem State.withRxq_dmem (q : List Byte) : (s.withRxq q).dmem = s.dmem := rfl
@[simp] theorem State.withRxq_script (q : List Byte) : (s.withRxq q).script = s.script := rfl
@[simp] theorem State.withRxq_tick (q : List Byte) : (s.withRxq q).tick = s.tick := rfl
@[simp] theorem State.withRxq_txWait (q : List Byte) : (s.withRxq q).txWait = s.txWait := rfl
@[simp] theorem State.withRxq_coreWait (q : List Byte) : (s.withRxq q).coreWait = s.coreWait := rfl

/-! ### State.withDmem -/

@[simp] theorem State.withDmem_div (m : Memory) : (s.withDmem m).div = s.div := rfl
@[simp] theorem State.withDmem_mode (m : Memory) : (s.withDmem m).mode = s.mode := rfl
@[simp] theorem State.withDmem_txen (m : Memory) : (s.withDmem m).txen = s.txen := rfl
@[simp] theorem State.withDmem_rxen (m : Memory) : (s.withDmem m).rxen = s.rxen := rfl
@[simp] theorem State.withDmem_u2x (m : Memory) : (s.withDmem m).u2x = s.u2x := rfl
@[simp] theorem State.withDmem_configured (m : Memory) : (s.withDmem m).configured = s.configured := rfl
@[simp] theorem State.withDmem_busy (m : Memory) : (s.withDmem m).busy = s.busy := rfl
@[simp] theorem State.withDmem_divOvf (m : Memory) : (s.withDmem m).divOvf = s.divOvf := rfl
@[simp] theorem State.withDmem_faulted (m : Memory) : (s.withDmem m).faulted = s.faulted := rfl
@[simp] theorem State.withDmem_faultCause (m : Memory) : (s.withDmem m).faultCause = s.faultCause := rfl
@[simp] theorem State.withDmem_faultInfo (m : Memory) : (s.withDmem m).faultInfo = s.faultInfo := rfl
@[simp] theorem State.withDmem_count (m : Memory) : (s.withDmem m).count = s.count := rfl
@[simp] theorem State.withDmem_lstate (m : Memory) : (s.withDmem m).lstate = s.lstate := rfl
@[simp] theorem State.withDmem_idx (m : Memory) : (s.withDmem m).idx = s.idx := rfl
@[simp] theorem State.withDmem_lbase (m : Memory) : (s.withDmem m).lbase = s.lbase := rfl
@[simp] theorem State.withDmem_lmax (m : Memory) : (s.withDmem m).lmax = s.lmax := rfl
@[simp] theorem State.withDmem_rxq (m : Memory) : (s.withDmem m).rxq = s.rxq := rfl
@[simp] theorem State.withDmem_txh (m : Memory) : (s.withDmem m).txh = s.txh := rfl
@[simp] theorem State.withDmem_txline (m : Memory) : (s.withDmem m).txline = s.txline := rfl
@[simp] theorem State.withDmem_dmem (m : Memory) : (s.withDmem m).dmem = m := rfl
@[simp] theorem State.withDmem_script (m : Memory) : (s.withDmem m).script = s.script := rfl
@[simp] theorem State.withDmem_tick (m : Memory) : (s.withDmem m).tick = s.tick := rfl
@[simp] theorem State.withDmem_txWait (m : Memory) : (s.withDmem m).txWait = s.txWait := rfl
@[simp] theorem State.withDmem_coreWait (m : Memory) : (s.withDmem m).coreWait = s.coreWait := rfl

/-! ### State.holdTx -/

@[simp] theorem State.holdTx_div (b : Byte) : (s.holdTx b).div = s.div := rfl
@[simp] theorem State.holdTx_mode (b : Byte) : (s.holdTx b).mode = s.mode := rfl
@[simp] theorem State.holdTx_txen (b : Byte) : (s.holdTx b).txen = s.txen := rfl
@[simp] theorem State.holdTx_rxen (b : Byte) : (s.holdTx b).rxen = s.rxen := rfl
@[simp] theorem State.holdTx_u2x (b : Byte) : (s.holdTx b).u2x = s.u2x := rfl
@[simp] theorem State.holdTx_configured (b : Byte) : (s.holdTx b).configured = s.configured := rfl
@[simp] theorem State.holdTx_busy (b : Byte) : (s.holdTx b).busy = s.busy := rfl
@[simp] theorem State.holdTx_divOvf (b : Byte) : (s.holdTx b).divOvf = s.divOvf := rfl
@[simp] theorem State.holdTx_faulted (b : Byte) : (s.holdTx b).faulted = s.faulted := rfl
@[simp] theorem State.holdTx_faultCause (b : Byte) : (s.holdTx b).faultCause = s.faultCause := rfl
@[simp] theorem State.holdTx_faultInfo (b : Byte) : (s.holdTx b).faultInfo = s.faultInfo := rfl
@[simp] theorem State.holdTx_count (b : Byte) : (s.holdTx b).count = s.count := rfl
@[simp] theorem State.holdTx_lstate (b : Byte) : (s.holdTx b).lstate = s.lstate := rfl
@[simp] theorem State.holdTx_idx (b : Byte) : (s.holdTx b).idx = s.idx := rfl
@[simp] theorem State.holdTx_lbase (b : Byte) : (s.holdTx b).lbase = s.lbase := rfl
@[simp] theorem State.holdTx_lmax (b : Byte) : (s.holdTx b).lmax = s.lmax := rfl
@[simp] theorem State.holdTx_rxq (b : Byte) : (s.holdTx b).rxq = s.rxq := rfl
@[simp] theorem State.holdTx_txh (b : Byte) : (s.holdTx b).txh = some b := rfl
@[simp] theorem State.holdTx_txline (b : Byte) : (s.holdTx b).txline = s.txline := rfl
@[simp] theorem State.holdTx_dmem (b : Byte) : (s.holdTx b).dmem = s.dmem := rfl
@[simp] theorem State.holdTx_script (b : Byte) : (s.holdTx b).script = s.script := rfl
@[simp] theorem State.holdTx_tick (b : Byte) : (s.holdTx b).tick = s.tick := rfl
@[simp] theorem State.holdTx_txWait (b : Byte) : (s.holdTx b).txWait = Config.txPatience s.tick := rfl
@[simp] theorem State.holdTx_coreWait (b : Byte) : (s.holdTx b).coreWait = s.coreWait := rfl

/-! ### State.drainTx -/

@[simp] theorem State.drainTx_div (b : Byte) : (s.drainTx b).div = s.div := rfl
@[simp] theorem State.drainTx_mode (b : Byte) : (s.drainTx b).mode = s.mode := rfl
@[simp] theorem State.drainTx_txen (b : Byte) : (s.drainTx b).txen = s.txen := rfl
@[simp] theorem State.drainTx_rxen (b : Byte) : (s.drainTx b).rxen = s.rxen := rfl
@[simp] theorem State.drainTx_u2x (b : Byte) : (s.drainTx b).u2x = s.u2x := rfl
@[simp] theorem State.drainTx_configured (b : Byte) : (s.drainTx b).configured = s.configured := rfl
@[simp] theorem State.drainTx_busy (b : Byte) : (s.drainTx b).busy = s.busy := rfl
@[simp] theorem State.drainTx_divOvf (b : Byte) : (s.drainTx b).divOvf = s.divOvf := rfl
@[simp] theorem State.drainTx_faulted (b : Byte) : (s.drainTx b).faulted = s.faulted := rfl
@[simp] theorem State.drainTx_faultCause (b : Byte) : (s.drainTx b).faultCause = s.faultCause := rfl
@[simp] theorem State.drainTx_faultInfo (b : Byte) : (s.drainTx b).faultInfo = s.faultInfo := rfl
@[simp] theorem State.drainTx_count (b : Byte) : (s.drainTx b).count = s.count := rfl
@[simp] theorem State.drainTx_lstate (b : Byte) : (s.drainTx b).lstate = s.lstate := rfl
@[simp] theorem State.drainTx_idx (b : Byte) : (s.drainTx b).idx = s.idx := rfl
@[simp] theorem State.drainTx_lbase (b : Byte) : (s.drainTx b).lbase = s.lbase := rfl
@[simp] theorem State.drainTx_lmax (b : Byte) : (s.drainTx b).lmax = s.lmax := rfl
@[simp] theorem State.drainTx_rxq (b : Byte) : (s.drainTx b).rxq = s.rxq := rfl
@[simp] theorem State.drainTx_txh (b : Byte) : (s.drainTx b).txh = none := rfl
@[simp] theorem State.drainTx_txline (b : Byte) : (s.drainTx b).txline = s.txline ++ [b] := rfl
@[simp] theorem State.drainTx_dmem (b : Byte) : (s.drainTx b).dmem = s.dmem := rfl
@[simp] theorem State.drainTx_script (b : Byte) : (s.drainTx b).script = s.script := rfl
@[simp] theorem State.drainTx_tick (b : Byte) : (s.drainTx b).tick = s.tick := rfl
@[simp] theorem State.drainTx_txWait (b : Byte) : (s.drainTx b).txWait = s.txWait := rfl
@[simp] theorem State.drainTx_coreWait (b : Byte) : (s.drainTx b).coreWait = s.coreWait := rfl

/-! ### State.latch -/

@[simp] theorem State.latch_div (d : Half) (u o : Bool) (m : Byte) : (s.latch d u o m).div = some d := rfl
@[simp] theorem State.latch_mode (d : Half) (u o : Bool) (m : Byte) : (s.latch d u o m).mode = some m := rfl
@[simp] theorem State.latch_txen (d : Half) (u o : Bool) (m : Byte) : (s.latch d u o m).txen = true := rfl
@[simp] theorem State.latch_rxen (d : Half) (u o : Bool) (m : Byte) : (s.latch d u o m).rxen = true := rfl
@[simp] theorem State.latch_u2x (d : Half) (u o : Bool) (m : Byte) : (s.latch d u o m).u2x = u := rfl
@[simp] theorem State.latch_configured (d : Half) (u o : Bool) (m : Byte) : (s.latch d u o m).configured = true := rfl
@[simp] theorem State.latch_busy (d : Half) (u o : Bool) (m : Byte) : (s.latch d u o m).busy = s.busy := rfl
@[simp] theorem State.latch_divOvf (d : Half) (u o : Bool) (m : Byte) : (s.latch d u o m).divOvf = o := rfl
@[simp] theorem State.latch_faulted (d : Half) (u o : Bool) (m : Byte) : (s.latch d u o m).faulted = s.faulted := rfl
@[simp] theorem State.latch_faultCause (d : Half) (u o : Bool) (m : Byte) : (s.latch d u o m).faultCause = s.faultCause := rfl
@[simp] theorem State.latch_faultInfo (d : Half) (u o : Bool) (m : Byte) : (s.latch d u o m).faultInfo = s.faultInfo := rfl
@[simp] theorem State.latch_count (d : Half) (u o : Bool) (m : Byte) : (s.latch d u o m).count = s.count := rfl
@[simp] theorem State.latch_lstate (d : Half) (u o : Bool) (m : Byte) : (s.latch d u o m).lstate = s.lstate := rfl
@[simp] theorem State.latch_idx (d : Half) (u o : Bool) (m : Byte) : (s.latch d u o m).idx = s.idx := rfl
@[simp] theorem State.latch_lbase (d : Half) (u o : Bool) (m : Byte) : (s.latch d u o m).lbase = s.lbase := rfl
@[simp] theorem State.latch_lmax (d : Half) (u o : Bool) (m : Byte) : (s.latch d u o m).lmax = s.lmax := rfl
@[simp] theorem State.latch_rxq (d : Half) (u o : Bool) (m : Byte) : (s.latch d u o m).rxq = s.rxq := rfl
@[simp] theorem State.latch_txh (d : Half) (u o : Bool) (m : Byte) : (s.latch d u o m).txh = s.txh := rfl
@[simp] theorem State.latch_txline (d : Half) (u o : Bool) (m : Byte) : (s.latch d u o m).txline = s.txline := rfl
@[simp] theorem State.latch_dmem (d : Half) (u o : Bool) (m : Byte) : (s.latch d u o m).dmem = s.dmem := rfl
@[simp] theorem State.latch_script (d : Half) (u o : Bool) (m : Byte) : (s.latch d u o m).script = s.script := rfl
@[simp] theorem State.latch_tick (d : Half) (u o : Bool) (m : Byte) : (s.latch d u o m).tick = s.tick := rfl
@[simp] theorem State.latch_txWait (d : Half) (u o : Bool) (m : Byte) : (s.latch d u o m).txWait = s.txWait := rfl
@[simp] theorem State.latch_coreWait (d : Half) (u o : Bool) (m : Byte) : (s.latch d u o m).coreWait = s.coreWait := rfl

/-! ### State.openLine -/

@[simp] theorem State.openLine_div (b n : Half) : (s.openLine b n).div = s.div := rfl
@[simp] theorem State.openLine_mode (b n : Half) : (s.openLine b n).mode = s.mode := rfl
@[simp] theorem State.openLine_txen (b n : Half) : (s.openLine b n).txen = s.txen := rfl
@[simp] theorem State.openLine_rxen (b n : Half) : (s.openLine b n).rxen = s.rxen := rfl
@[simp] theorem State.openLine_u2x (b n : Half) : (s.openLine b n).u2x = s.u2x := rfl
@[simp] theorem State.openLine_configured (b n : Half) : (s.openLine b n).configured = s.configured := rfl
@[simp] theorem State.openLine_busy (b n : Half) : (s.openLine b n).busy = true := rfl
@[simp] theorem State.openLine_divOvf (b n : Half) : (s.openLine b n).divOvf = s.divOvf := rfl
@[simp] theorem State.openLine_faulted (b n : Half) : (s.openLine b n).faulted = s.faulted := rfl
@[simp] theorem State.openLine_faultCause (b n : Half) : (s.openLine b n).faultCause = s.faultCause := rfl
@[simp] theorem State.openLine_faultInfo (b n : Half) : (s.openLine b n).faultInfo = s.faultInfo := rfl
@[simp] theorem State.openLine_count (b n : Half) : (s.openLine b n).count = s.count := rfl
@[simp] theorem State.openLine_lstate (b n : Half) : (s.openLine b n).lstate = .fetch := rfl
@[simp] theorem State.openLine_idx (b n : Half) : (s.openLine b n).idx = 0#16 := rfl
@[simp] theorem State.openLine_lbase (b n : Half) : (s.openLine b n).lbase = b := rfl
@[simp] theorem State.openLine_lmax (b n : Half) : (s.openLine b n).lmax = n := rfl
@[simp] theorem State.openLine_rxq (b n : Half) : (s.openLine b n).rxq = s.rxq := rfl
@[simp] theorem State.openLine_txh (b n : Half) : (s.openLine b n).txh = s.txh := rfl
@[simp] theorem State.openLine_txline (b n : Half) : (s.openLine b n).txline = s.txline := rfl
@[simp] theorem State.openLine_dmem (b n : Half) : (s.openLine b n).dmem = s.dmem := rfl
@[simp] theorem State.openLine_script (b n : Half) : (s.openLine b n).script = s.script := rfl
@[simp] theorem State.openLine_tick (b n : Half) : (s.openLine b n).tick = s.tick := rfl
@[simp] theorem State.openLine_txWait (b n : Half) : (s.openLine b n).txWait = s.txWait := rfl
@[simp] theorem State.openLine_coreWait (b n : Half) : (s.openLine b n).coreWait = s.coreWait := rfl

/-! ### State.closeLine -/

@[simp] theorem State.closeLine_div : (s.closeLine).div = s.div := rfl
@[simp] theorem State.closeLine_mode : (s.closeLine).mode = s.mode := rfl
@[simp] theorem State.closeLine_txen : (s.closeLine).txen = s.txen := rfl
@[simp] theorem State.closeLine_rxen : (s.closeLine).rxen = s.rxen := rfl
@[simp] theorem State.closeLine_u2x : (s.closeLine).u2x = s.u2x := rfl
@[simp] theorem State.closeLine_configured : (s.closeLine).configured = s.configured := rfl
@[simp] theorem State.closeLine_busy : (s.closeLine).busy = false := rfl
@[simp] theorem State.closeLine_divOvf : (s.closeLine).divOvf = s.divOvf := rfl
@[simp] theorem State.closeLine_faulted : (s.closeLine).faulted = s.faulted := rfl
@[simp] theorem State.closeLine_faultCause : (s.closeLine).faultCause = s.faultCause := rfl
@[simp] theorem State.closeLine_faultInfo : (s.closeLine).faultInfo = s.faultInfo := rfl
@[simp] theorem State.closeLine_count : (s.closeLine).count = some s.idx := rfl
@[simp] theorem State.closeLine_lstate : (s.closeLine).lstate = .idle := rfl
@[simp] theorem State.closeLine_idx : (s.closeLine).idx = s.idx := rfl
@[simp] theorem State.closeLine_lbase : (s.closeLine).lbase = s.lbase := rfl
@[simp] theorem State.closeLine_lmax : (s.closeLine).lmax = s.lmax := rfl
@[simp] theorem State.closeLine_rxq : (s.closeLine).rxq = s.rxq := rfl
@[simp] theorem State.closeLine_txh : (s.closeLine).txh = s.txh := rfl
@[simp] theorem State.closeLine_txline : (s.closeLine).txline = s.txline := rfl
@[simp] theorem State.closeLine_dmem : (s.closeLine).dmem = s.dmem := rfl
@[simp] theorem State.closeLine_script : (s.closeLine).script = s.script := rfl
@[simp] theorem State.closeLine_tick : (s.closeLine).tick = s.tick := rfl
@[simp] theorem State.closeLine_txWait : (s.closeLine).txWait = s.txWait := rfl
@[simp] theorem State.closeLine_coreWait : (s.closeLine).coreWait = s.coreWait := rfl

/-! ### State.recordFault -/

@[simp] theorem State.recordFault_div (c : Byte) (w : CmdWord) : (s.recordFault c w).div = s.div := rfl
@[simp] theorem State.recordFault_mode (c : Byte) (w : CmdWord) : (s.recordFault c w).mode = s.mode := rfl
@[simp] theorem State.recordFault_txen (c : Byte) (w : CmdWord) : (s.recordFault c w).txen = s.txen := rfl
@[simp] theorem State.recordFault_rxen (c : Byte) (w : CmdWord) : (s.recordFault c w).rxen = s.rxen := rfl
@[simp] theorem State.recordFault_u2x (c : Byte) (w : CmdWord) : (s.recordFault c w).u2x = s.u2x := rfl
@[simp] theorem State.recordFault_configured (c : Byte) (w : CmdWord) : (s.recordFault c w).configured = s.configured := rfl
@[simp] theorem State.recordFault_busy (c : Byte) (w : CmdWord) : (s.recordFault c w).busy = s.busy := rfl
@[simp] theorem State.recordFault_divOvf (c : Byte) (w : CmdWord) : (s.recordFault c w).divOvf = s.divOvf := rfl
@[simp] theorem State.recordFault_faulted (c : Byte) (w : CmdWord) : (s.recordFault c w).faulted = true := rfl
@[simp] theorem State.recordFault_faultCause (c : Byte) (w : CmdWord) : (s.recordFault c w).faultCause = c := rfl
@[simp] theorem State.recordFault_faultInfo (c : Byte) (w : CmdWord) : (s.recordFault c w).faultInfo = w := rfl
@[simp] theorem State.recordFault_count (c : Byte) (w : CmdWord) : (s.recordFault c w).count = s.count := rfl
@[simp] theorem State.recordFault_lstate (c : Byte) (w : CmdWord) : (s.recordFault c w).lstate = s.lstate := rfl
@[simp] theorem State.recordFault_idx (c : Byte) (w : CmdWord) : (s.recordFault c w).idx = s.idx := rfl
@[simp] theorem State.recordFault_lbase (c : Byte) (w : CmdWord) : (s.recordFault c w).lbase = s.lbase := rfl
@[simp] theorem State.recordFault_lmax (c : Byte) (w : CmdWord) : (s.recordFault c w).lmax = s.lmax := rfl
@[simp] theorem State.recordFault_rxq (c : Byte) (w : CmdWord) : (s.recordFault c w).rxq = s.rxq := rfl
@[simp] theorem State.recordFault_txh (c : Byte) (w : CmdWord) : (s.recordFault c w).txh = s.txh := rfl
@[simp] theorem State.recordFault_txline (c : Byte) (w : CmdWord) : (s.recordFault c w).txline = s.txline := rfl
@[simp] theorem State.recordFault_dmem (c : Byte) (w : CmdWord) : (s.recordFault c w).dmem = s.dmem := rfl
@[simp] theorem State.recordFault_script (c : Byte) (w : CmdWord) : (s.recordFault c w).script = s.script := rfl
@[simp] theorem State.recordFault_tick (c : Byte) (w : CmdWord) : (s.recordFault c w).tick = s.tick := rfl
@[simp] theorem State.recordFault_txWait (c : Byte) (w : CmdWord) : (s.recordFault c w).txWait = s.txWait := rfl
@[simp] theorem State.recordFault_coreWait (c : Byte) (w : CmdWord) : (s.recordFault c w).coreWait = s.coreWait := rfl

/-! ### raiseFault -/

@[simp] theorem raiseFault_div (c : FaultCause) (w : CmdWord) : (raiseFault c w s).div = s.div := rfl
@[simp] theorem raiseFault_mode (c : FaultCause) (w : CmdWord) : (raiseFault c w s).mode = s.mode := rfl
@[simp] theorem raiseFault_txen (c : FaultCause) (w : CmdWord) : (raiseFault c w s).txen = s.txen := rfl
@[simp] theorem raiseFault_rxen (c : FaultCause) (w : CmdWord) : (raiseFault c w s).rxen = s.rxen := rfl
@[simp] theorem raiseFault_u2x (c : FaultCause) (w : CmdWord) : (raiseFault c w s).u2x = s.u2x := rfl
@[simp] theorem raiseFault_configured (c : FaultCause) (w : CmdWord) : (raiseFault c w s).configured = s.configured := rfl
@[simp] theorem raiseFault_busy (c : FaultCause) (w : CmdWord) : (raiseFault c w s).busy = s.busy := rfl
@[simp] theorem raiseFault_divOvf (c : FaultCause) (w : CmdWord) : (raiseFault c w s).divOvf = s.divOvf := rfl
@[simp] theorem raiseFault_faulted (c : FaultCause) (w : CmdWord) : (raiseFault c w s).faulted = true := rfl
@[simp] theorem raiseFault_faultCause (c : FaultCause) (w : CmdWord) : (raiseFault c w s).faultCause = c.code := rfl
@[simp] theorem raiseFault_faultInfo (c : FaultCause) (w : CmdWord) : (raiseFault c w s).faultInfo = w := rfl
@[simp] theorem raiseFault_count (c : FaultCause) (w : CmdWord) : (raiseFault c w s).count = s.count := rfl
@[simp] theorem raiseFault_lstate (c : FaultCause) (w : CmdWord) : (raiseFault c w s).lstate = s.lstate := rfl
@[simp] theorem raiseFault_idx (c : FaultCause) (w : CmdWord) : (raiseFault c w s).idx = s.idx := rfl
@[simp] theorem raiseFault_lbase (c : FaultCause) (w : CmdWord) : (raiseFault c w s).lbase = s.lbase := rfl
@[simp] theorem raiseFault_lmax (c : FaultCause) (w : CmdWord) : (raiseFault c w s).lmax = s.lmax := rfl
@[simp] theorem raiseFault_rxq (c : FaultCause) (w : CmdWord) : (raiseFault c w s).rxq = s.rxq := rfl
@[simp] theorem raiseFault_txh (c : FaultCause) (w : CmdWord) : (raiseFault c w s).txh = s.txh := rfl
@[simp] theorem raiseFault_txline (c : FaultCause) (w : CmdWord) : (raiseFault c w s).txline = s.txline := rfl
@[simp] theorem raiseFault_dmem (c : FaultCause) (w : CmdWord) : (raiseFault c w s).dmem = s.dmem := rfl
@[simp] theorem raiseFault_script (c : FaultCause) (w : CmdWord) : (raiseFault c w s).script = s.script := rfl
@[simp] theorem raiseFault_tick (c : FaultCause) (w : CmdWord) : (raiseFault c w s).tick = s.tick := rfl
@[simp] theorem raiseFault_txWait (c : FaultCause) (w : CmdWord) : (raiseFault c w s).txWait = s.txWait := rfl
@[simp] theorem raiseFault_coreWait (c : FaultCause) (w : CmdWord) : (raiseFault c w s).coreWait = s.coreWait := rfl

/-! ### State.popMove -/

@[simp] theorem State.popMove_div (r : List Move) : (s.popMove r).div = s.div := rfl
@[simp] theorem State.popMove_mode (r : List Move) : (s.popMove r).mode = s.mode := rfl
@[simp] theorem State.popMove_txen (r : List Move) : (s.popMove r).txen = s.txen := rfl
@[simp] theorem State.popMove_rxen (r : List Move) : (s.popMove r).rxen = s.rxen := rfl
@[simp] theorem State.popMove_u2x (r : List Move) : (s.popMove r).u2x = s.u2x := rfl
@[simp] theorem State.popMove_configured (r : List Move) : (s.popMove r).configured = s.configured := rfl
@[simp] theorem State.popMove_busy (r : List Move) : (s.popMove r).busy = s.busy := rfl
@[simp] theorem State.popMove_divOvf (r : List Move) : (s.popMove r).divOvf = s.divOvf := rfl
@[simp] theorem State.popMove_faulted (r : List Move) : (s.popMove r).faulted = s.faulted := rfl
@[simp] theorem State.popMove_faultCause (r : List Move) : (s.popMove r).faultCause = s.faultCause := rfl
@[simp] theorem State.popMove_faultInfo (r : List Move) : (s.popMove r).faultInfo = s.faultInfo := rfl
@[simp] theorem State.popMove_count (r : List Move) : (s.popMove r).count = s.count := rfl
@[simp] theorem State.popMove_lstate (r : List Move) : (s.popMove r).lstate = s.lstate := rfl
@[simp] theorem State.popMove_idx (r : List Move) : (s.popMove r).idx = s.idx := rfl
@[simp] theorem State.popMove_lbase (r : List Move) : (s.popMove r).lbase = s.lbase := rfl
@[simp] theorem State.popMove_lmax (r : List Move) : (s.popMove r).lmax = s.lmax := rfl
@[simp] theorem State.popMove_rxq (r : List Move) : (s.popMove r).rxq = s.rxq := rfl
@[simp] theorem State.popMove_txh (r : List Move) : (s.popMove r).txh = s.txh := rfl
@[simp] theorem State.popMove_txline (r : List Move) : (s.popMove r).txline = s.txline := rfl
@[simp] theorem State.popMove_dmem (r : List Move) : (s.popMove r).dmem = s.dmem := rfl
@[simp] theorem State.popMove_script (r : List Move) : (s.popMove r).script = r := rfl
@[simp] theorem State.popMove_tick (r : List Move) : (s.popMove r).tick = s.tick := rfl
@[simp] theorem State.popMove_txWait (r : List Move) : (s.popMove r).txWait = s.txWait := rfl
@[simp] theorem State.popMove_coreWait (r : List Move) : (s.popMove r).coreWait = s.coreWait := rfl

/-! ### State.drawMove -/

@[simp] theorem State.drawMove_div : (s.drawMove).div = s.div := rfl
@[simp] theorem State.drawMove_mode : (s.drawMove).mode = s.mode := rfl
@[simp] theorem State.drawMove_txen : (s.drawMove).txen = s.txen := rfl
@[simp] theorem State.drawMove_rxen : (s.drawMove).rxen = s.rxen := rfl
@[simp] theorem State.drawMove_u2x : (s.drawMove).u2x = s.u2x := rfl
@[simp] theorem State.drawMove_configured : (s.drawMove).configured = s.configured := rfl
@[simp] theorem State.drawMove_busy : (s.drawMove).busy = s.busy := rfl
@[simp] theorem State.drawMove_divOvf : (s.drawMove).divOvf = s.divOvf := rfl
@[simp] theorem State.drawMove_faulted : (s.drawMove).faulted = s.faulted := rfl
@[simp] theorem State.drawMove_faultCause : (s.drawMove).faultCause = s.faultCause := rfl
@[simp] theorem State.drawMove_faultInfo : (s.drawMove).faultInfo = s.faultInfo := rfl
@[simp] theorem State.drawMove_count : (s.drawMove).count = s.count := rfl
@[simp] theorem State.drawMove_lstate : (s.drawMove).lstate = s.lstate := rfl
@[simp] theorem State.drawMove_idx : (s.drawMove).idx = s.idx := rfl
@[simp] theorem State.drawMove_lbase : (s.drawMove).lbase = s.lbase := rfl
@[simp] theorem State.drawMove_lmax : (s.drawMove).lmax = s.lmax := rfl
@[simp] theorem State.drawMove_rxq : (s.drawMove).rxq = s.rxq := rfl
@[simp] theorem State.drawMove_txh : (s.drawMove).txh = s.txh := rfl
@[simp] theorem State.drawMove_txline : (s.drawMove).txline = s.txline := rfl
@[simp] theorem State.drawMove_dmem : (s.drawMove).dmem = s.dmem := rfl
@[simp] theorem State.drawMove_script : (s.drawMove).script = s.script := rfl
@[simp] theorem State.drawMove_tick : (s.drawMove).tick = s.tick + 1 := rfl
@[simp] theorem State.drawMove_txWait : (s.drawMove).txWait = s.txWait := rfl
@[simp] theorem State.drawMove_coreWait : (s.drawMove).coreWait = s.coreWait := rfl

/-! ### State.countTurn -/

@[simp] theorem State.countTurn_div (c : Bool) : (s.countTurn c).div = s.div := rfl
@[simp] theorem State.countTurn_mode (c : Bool) : (s.countTurn c).mode = s.mode := rfl
@[simp] theorem State.countTurn_txen (c : Bool) : (s.countTurn c).txen = s.txen := rfl
@[simp] theorem State.countTurn_rxen (c : Bool) : (s.countTurn c).rxen = s.rxen := rfl
@[simp] theorem State.countTurn_u2x (c : Bool) : (s.countTurn c).u2x = s.u2x := rfl
@[simp] theorem State.countTurn_configured (c : Bool) : (s.countTurn c).configured = s.configured := rfl
@[simp] theorem State.countTurn_busy (c : Bool) : (s.countTurn c).busy = s.busy := rfl
@[simp] theorem State.countTurn_divOvf (c : Bool) : (s.countTurn c).divOvf = s.divOvf := rfl
@[simp] theorem State.countTurn_faulted (c : Bool) : (s.countTurn c).faulted = s.faulted := rfl
@[simp] theorem State.countTurn_faultCause (c : Bool) : (s.countTurn c).faultCause = s.faultCause := rfl
@[simp] theorem State.countTurn_faultInfo (c : Bool) : (s.countTurn c).faultInfo = s.faultInfo := rfl
@[simp] theorem State.countTurn_count (c : Bool) : (s.countTurn c).count = s.count := rfl
@[simp] theorem State.countTurn_lstate (c : Bool) : (s.countTurn c).lstate = s.lstate := rfl
@[simp] theorem State.countTurn_idx (c : Bool) : (s.countTurn c).idx = s.idx := rfl
@[simp] theorem State.countTurn_lbase (c : Bool) : (s.countTurn c).lbase = s.lbase := rfl
@[simp] theorem State.countTurn_lmax (c : Bool) : (s.countTurn c).lmax = s.lmax := rfl
@[simp] theorem State.countTurn_rxq (c : Bool) : (s.countTurn c).rxq = s.rxq := rfl
@[simp] theorem State.countTurn_txh (c : Bool) : (s.countTurn c).txh = s.txh := rfl
@[simp] theorem State.countTurn_txline (c : Bool) : (s.countTurn c).txline = s.txline := rfl
@[simp] theorem State.countTurn_dmem (c : Bool) : (s.countTurn c).dmem = s.dmem := rfl
@[simp] theorem State.countTurn_script (c : Bool) : (s.countTurn c).script = s.script := rfl
@[simp] theorem State.countTurn_tick (c : Bool) : (s.countTurn c).tick = s.tick := rfl
@[simp] theorem State.countTurn_txWait (c : Bool) : (s.countTurn c).txWait = s.txWait - 1 := rfl
@[simp] theorem State.countTurn_coreWait (c : Bool) : (s.countTurn c).coreWait = if c then s.coreWait - 1 else Config.corePatience s.tick := rfl

/-! ### applyReset -/

@[simp] theorem applyReset_div : (applyReset s).div = none := rfl
@[simp] theorem applyReset_mode : (applyReset s).mode = none := rfl
@[simp] theorem applyReset_txen : (applyReset s).txen = false := rfl
@[simp] theorem applyReset_rxen : (applyReset s).rxen = false := rfl
@[simp] theorem applyReset_u2x : (applyReset s).u2x = false := rfl
@[simp] theorem applyReset_configured : (applyReset s).configured = false := rfl
@[simp] theorem applyReset_busy : (applyReset s).busy = false := rfl
@[simp] theorem applyReset_divOvf : (applyReset s).divOvf = false := rfl
@[simp] theorem applyReset_faulted : (applyReset s).faulted = false := rfl
@[simp] theorem applyReset_faultCause : (applyReset s).faultCause = 0#8 := rfl
@[simp] theorem applyReset_faultInfo : (applyReset s).faultInfo = 0#64 := rfl
@[simp] theorem applyReset_count : (applyReset s).count = none := rfl
@[simp] theorem applyReset_lstate : (applyReset s).lstate = .idle := rfl
@[simp] theorem applyReset_idx : (applyReset s).idx = 0#16 := rfl
@[simp] theorem applyReset_lbase : (applyReset s).lbase = 0#16 := rfl
@[simp] theorem applyReset_lmax : (applyReset s).lmax = 0#16 := rfl
@[simp] theorem applyReset_rxq : (applyReset s).rxq = [] := rfl
@[simp] theorem applyReset_txh : (applyReset s).txh = none := rfl
@[simp] theorem applyReset_txline : (applyReset s).txline = [] := rfl
@[simp] theorem applyReset_dmem : (applyReset s).dmem = s.dmem := rfl
@[simp] theorem applyReset_script : (applyReset s).script = s.script := rfl
@[simp] theorem applyReset_tick : (applyReset s).tick = s.tick := rfl
@[simp] theorem applyReset_txWait : (applyReset s).txWait = s.txWait := rfl
@[simp] theorem applyReset_coreWait : (applyReset s).coreWait = s.coreWait := rfl

end Sys2Proof.Machine
end

