-- ==== Sys2Proof/Laws/Brc.lean ====
section
/-! SUPPORT. The small lemmas of the divisor arithmetic and of the parameters (00_scope R7, 40_configure R102 to
R106). -/

namespace Sys2Proof.Machine

theorem clkFreq_range (p : Params) : 1 ≤ p.clkFreq ∧ p.clkFreq < 2 ^ 32 := by
  have := p.clkFreqLess1.isLt
  unfold Params.clkFreq
  omega

theorem divW_range (p : Params) : 8 ≤ p.divW ∧ p.divW ≤ 16 := by
  have := p.divWLess8.isLt
  unfold Params.divW
  omega

/-- Every double-speed divisor fits the register (92 D7). -/
theorem two_pow_divW_range (p : Params) : 256 ≤ 2 ^ p.divW ∧ 2 ^ p.divW ≤ 65536 := by
  obtain ⟨h1, h2⟩ := divW_range p
  exact ⟨Nat.pow_le_pow_right (n := 2) (by omega) h1, Nat.pow_le_pow_right (n := 2) (by omega) h2⟩

theorem doubleSpeed_iff (clk baud : Nat) : doubleSpeed clk baud = true ↔ divisor8 clk baud ≤ 255 := by
  unfold doubleSpeed div8Max
  exact decide_eq_true_iff

theorem divisorOverflows_iff (p : Params) (baud : Nat) :
    divisorOverflows p baud = true ↔
      255 < divisor8 p.clkFreq baud ∧ 2 ^ p.divW ≤ divisor16 p.clkFreq baud := by
  rw [divisorOverflows, Bool.and_eq_true, Bool.not_eq_true', Bool.eq_false_iff, ne_eq, doubleSpeed_iff,
    decide_eq_true_iff]
  omega

theorem divisorValue_double {p : Params} {baud : Nat} (h : divisor8 p.clkFreq baud ≤ 255) :
    divisorValue p baud = divisor8 p.clkFreq baud := by
  simp [divisorValue, (doubleSpeed_iff _ _).2 h]

theorem divisorValue_normal {p : Params} {baud : Nat} (h : 255 < divisor8 p.clkFreq baud) :
    divisorValue p baud = divisor16 p.clkFreq baud % 2 ^ p.divW := by
  have : ¬ doubleSpeed p.clkFreq baud = true := by rw [doubleSpeed_iff]; omega
  simp [divisorValue, this]

/-- What a `CONFIGURE` does to a core that accepts it and finds nothing wrong with its operands (R100, R193). -/
theorem configureWith_accepted {p : Params} {dsz : BitVec 2} {stp : BitVec 1} {par : BitVec 2} {baud : BitVec 32}
    {s : State} (hf : s.faulted = false) (hb : s.busy = false) (hp : par ≠ parReserved) (hz : baud ≠ 0#32) :
    configureWith p dsz stp par baud s = configureBody p dsz stp par baud s := by
  simp [configureWith, acceptCommand, firstFault, hf, hb, hp, hz]

end Sys2Proof.Machine
end

