-- ==== Sys2Proof/Laws/Decode.lean ====
section
/-! SUPPORT. The encoder's fields read back, and the bytes of a word give the word again (30_encoding R70, R72, R73). -/

namespace Sys2Proof

open Sys2Proof.Machine

/-- A word is the word of its bytes (R70). -/
@[simp] theorem Machine.wordOfBytes_bytesOfWord (w : CmdWord) : wordOfBytes (bytesOfWord w) = w := by
  ext i hi
  simp [wordOfBytes, bytesOfWord, byteOf]
  grind

section Configure

variable (dsz : BitVec 2) (stp : BitVec 1) (par : BitVec 2) (baud : BitVec 32)

@[simp] theorem cmdDsz_encodeConfigure : cmdDsz (encodeConfigure dsz stp par baud) = dsz := by
  ext i hi
  simp [cmdDsz, encodeConfigure]
  grind

@[simp] theorem cmdStp_encodeConfigure : cmdStp (encodeConfigure dsz stp par baud) = stp := by
  ext i hi
  simp [cmdStp, encodeConfigure]
  grind

@[simp] theorem cmdPar_encodeConfigure : cmdPar (encodeConfigure dsz stp par baud) = par := by
  ext i hi
  simp [cmdPar, encodeConfigure]
  grind

@[simp] theorem cmdBaud_encodeConfigure : cmdBaud (encodeConfigure dsz stp par baud) = baud := by
  ext i hi
  simp [cmdBaud, encodeConfigure]
  grind

@[simp] theorem cmdOp_encodeConfigure : cmdOp (encodeConfigure dsz stp par baud) = 0x01#8 := by
  ext i hi
  interval_cases i <;> simp [cmdOp, encodeConfigure]

@[simp] theorem formatC_encodeConfigure : formatCReservedZero (encodeConfigure dsz stp par baud) = true := by
  have h1 : (encodeConfigure dsz stp par baud).extractLsb' 13 3 = 0#3 := by
    ext i hi
    interval_cases i <;> simp [encodeConfigure]
  have h2 : (encodeConfigure dsz stp par baud).extractLsb' 48 16 = 0#16 := by
    ext i hi
    interval_cases i <;> simp [encodeConfigure]
  simp [formatCReservedZero, h1, h2]

end Configure

section RecvLine

variable (maxlen base : Half)

@[simp] theorem cmdMaxlen_encodeRecvLine : cmdMaxlen (encodeRecvLine maxlen base) = maxlen := by
  ext i hi
  interval_cases i <;> simp [cmdMaxlen, encodeRecvLine]

@[simp] theorem cmdBase_encodeRecvLine : cmdBase (encodeRecvLine maxlen base) = base := by
  ext i hi
  interval_cases i <;> simp [cmdBase, encodeRecvLine]

@[simp] theorem cmdOp_encodeRecvLine : cmdOp (encodeRecvLine maxlen base) = 0x02#8 := by
  ext i hi
  interval_cases i <;> simp [cmdOp, encodeRecvLine]

@[simp] theorem formatL_encodeRecvLine : formatLReservedZero (encodeRecvLine maxlen base) = true := by
  have h1 : (encodeRecvLine maxlen base).extractLsb' 8 8 = 0#8 := by
    ext i hi
    interval_cases i <;> simp [encodeRecvLine]
  have h2 : (encodeRecvLine maxlen base).extractLsb' 48 16 = 0#16 := by
    ext i hi
    interval_cases i <;> simp [encodeRecvLine]
  simp [formatLReservedZero, h1, h2]

end RecvLine

/-! ### Every word is a legal `CONFIGURE`, a legal `RECV_LINE`, or illegal -/

/-- A word with format C's opcode and reserved bits 0 is the word of its fields (R72). -/
theorem encodeConfigure_fields {cw : CmdWord} (hop : cmdOp cw = 0x01#8) (hres : formatCReservedZero cw = true) :
    encodeConfigure (cmdDsz cw) (cmdStp cw) (cmdPar cw) (cmdBaud cw) = cw := by
  simp only [formatCReservedZero, Bool.and_eq_true, beq_iff_eq] at hres
  have op : ∀ j, j < 8 → cw.getLsbD j = (0x01#8).getLsbD j := fun j hj => by
    rw [← hop]; simp [cmdOp]; omega
  have mid : ∀ j, 13 ≤ j → j < 16 → cw.getLsbD j = false := fun j h1 h2 => by
    have := congrArg (fun v => BitVec.getLsbD v (j - 13)) hres.1
    simp only [BitVec.getLsbD_extractLsb', BitVec.getLsbD_zero, Bool.and_eq_false_imp, decide_eq_true_eq] at this
    rw [show 13 + (j - 13) = j by omega] at this
    exact this (by omega)
  have top : ∀ j, 48 ≤ j → j < 64 → cw.getLsbD j = false := fun j h1 h2 => by
    have := congrArg (fun v => BitVec.getLsbD v (j - 48)) hres.2
    simp only [BitVec.getLsbD_extractLsb', BitVec.getLsbD_zero, Bool.and_eq_false_imp, decide_eq_true_eq] at this
    rw [show 48 + (j - 48) = j by omega] at this
    exact this (by omega)
  ext i hi
  interval_cases i <;>
    simp [encodeConfigure, cmdDsz, cmdStp, cmdPar, cmdBaud, ← BitVec.getLsbD_eq_getElem, op, mid, top]

/-- A word with format L's opcode and reserved bits 0 is the word of its fields (R73). -/
theorem encodeRecvLine_fields {cw : CmdWord} (hop : cmdOp cw = 0x02#8) (hres : formatLReservedZero cw = true) :
    encodeRecvLine (cmdMaxlen cw) (cmdBase cw) = cw := by
  simp only [formatLReservedZero, Bool.and_eq_true, beq_iff_eq] at hres
  have op : ∀ j, j < 8 → cw.getLsbD j = (0x02#8).getLsbD j := fun j hj => by
    rw [← hop]; simp [cmdOp]; omega
  have mid : ∀ j, 8 ≤ j → j < 16 → cw.getLsbD j = false := fun j h1 h2 => by
    have := congrArg (fun v => BitVec.getLsbD v (j - 8)) hres.1
    simp only [BitVec.getLsbD_extractLsb', BitVec.getLsbD_zero, Bool.and_eq_false_imp, decide_eq_true_eq] at this
    rw [show 8 + (j - 8) = j by omega] at this
    exact this (by omega)
  have top : ∀ j, 48 ≤ j → j < 64 → cw.getLsbD j = false := fun j h1 h2 => by
    have := congrArg (fun v => BitVec.getLsbD v (j - 48)) hres.2
    simp only [BitVec.getLsbD_extractLsb', BitVec.getLsbD_zero, Bool.and_eq_false_imp, decide_eq_true_eq] at this
    rw [show 48 + (j - 48) = j by omega] at this
    exact this (by omega)
  ext i hi
  interval_cases i <;>
    simp [encodeRecvLine, cmdMaxlen, cmdBase, ← BitVec.getLsbD_eq_getElem, op, mid, top]

/-- What the decoder of command words can answer. -/
theorem decodeCommand_cases (cw : CmdWord) :
    (cmdOp cw = 0x01#8 ∧ formatCReservedZero cw = true ∧
        decodeCommand cw = .ok (.configure (cmdDsz cw) (cmdStp cw) (cmdPar cw) (cmdBaud cw))) ∨
      (cmdOp cw = 0x02#8 ∧ formatLReservedZero cw = true ∧
        decodeCommand cw = .ok (.recvLine (cmdMaxlen cw) (cmdBase cw))) ∨
      ∃ e, decodeCommand cw = .error e ∧ ¬ (cmdOp cw = 0x01#8 ∧ formatCReservedZero cw = true) ∧
        ¬ (cmdOp cw = 0x02#8 ∧ formatLReservedZero cw = true) := by
  unfold decodeCommand
  by_cases h1 : cmdOp cw = 0x01#8
  · cases h2 : formatCReservedZero cw <;> simp [h1]
  · by_cases h3 : cmdOp cw = 0x02#8
    · cases h2 : formatLReservedZero cw <;> simp [h3]
    · simp [h1, h3]

/-- A write index is nonzero when it is positive. -/
theorem half_ne_zero_iff {i : Half} : i ≠ 0#16 ↔ 0 < i.toNat := by
  constructor
  · intro h
    by_contra h'
    exact h (BitVec.eq_of_toNat_eq (by simp; omega))
  · rintro h rfl
    simp at h

/-- The class of a byte that is neither terminator and is not an erase (R82). -/
theorem decodeByte_data {c : Byte} {idx : Half} (h1 : c ≠ byteCR) (h2 : c ≠ byteLF)
    (h3 : ¬ ((c = byteBS ∨ c = byteDEL) ∧ 0 < idx.toNat)) : decodeByte c idx = .rxbData c := by
  unfold decodeByte
  simp only [half_ne_zero_iff]
  grind

end Sys2Proof
end

