-- ==== Sys2Proof/Laws/Ops.lean ====
section
/-! SUPPORT. One lemma per shared operation, saying everything it can do; later proofs cite these and do not unfold
the operation. -/

namespace Sys2Proof.Machine

@[simp] theorem andThen_next (s : State) (k : State → Result) : andThen (.next s) k = k s := rfl

@[simp] theorem andThen_fault (e : Fault) (k : State → Result) : andThen (.fault e) k = .fault e := rfl

@[simp] theorem nextState_next (s : State) : nextState? (.next s) = some s := rfl

/-- A memory write answers the state with the byte written, or a fault past the top of `DMEM`. -/
theorem memWrite_cases (a : Nat) (v : Byte) (s : State) :
    (a < dmemSize ∧ memWrite a v s = .next (s.withDmem (Memory.write s.dmem a v))) ∨
      (dmemSize ≤ a ∧ memWrite a v s = .fault (.outsideDmem a)) := by
  unfold memWrite
  split
  · exact .inl ⟨‹_›, rfl⟩
  · exact .inr ⟨by omega, rfl⟩

theorem memWrite_inside {a : Nat} (h : a < dmemSize) (v : Byte) (s : State) :
    memWrite a v s = .next (s.withDmem (Memory.write s.dmem a v)) := by
  simp [memWrite, h]

/-- The first of two checks that fails is the one reported. -/
@[simp] theorem firstFault_cons (bad : Bool) (c : FaultCause) (rest : List (Bool × FaultCause)) :
    firstFault ((bad, c) :: rest) = if bad then some c else firstFault rest := rfl

@[simp] theorem firstFault_nil : firstFault [] = none := rfl

/-- The acceptance of a legal command has three outcomes: ignored, one recorded fault, or the command's body. -/
theorem acceptCommand_cases (cw : CmdWord) (checks : List (Bool × FaultCause)) (body : State → State) (s : State) :
    (s.faulted = true ∧ acceptCommand cw checks body s = s) ∨
      (s.faulted = false ∧ ∃ c, firstFault ((s.busy, .busy) :: checks) = some c ∧
        acceptCommand cw checks body s = raiseFault c cw s) ∨
      (s.faulted = false ∧ s.busy = false ∧ firstFault checks = none ∧
        acceptCommand cw checks body s = body s) := by
  unfold acceptCommand
  cases hf : s.faulted
  · right
    cases hb : s.busy
    · cases hc : firstFault checks <;> simp [hc]
    · simp
  · simp

/-- A code of R191 lies in 1 to 7. -/
theorem FaultCause.code_range (c : FaultCause) : 1 ≤ c.code.toNat ∧ c.code.toNat ≤ 7 := by
  cases c <;> decide

/-- `RxPop` waits on an empty queue, else takes the head. -/
theorem rxPop_cases (s : State) :
    (s.rxq = [] ∧ rxPop s = none) ∨ ∃ c q, s.rxq = c :: q ∧ rxPop s = some (c, s.withRxq q) := by
  unfold rxPop
  split
  · exact .inl ⟨‹_›, rfl⟩
  · exact .inr ⟨_, _, ‹_›, rfl⟩

/-- `TxPut` waits while `TXH` is full, else fills it. -/
theorem txPut_cases (b : Byte) (s : State) :
    (s.txh = none ∧ txPut b s = some (s.holdTx b)) ∨ ((∃ c, s.txh = some c) ∧ txPut b s = none) := by
  unfold txPut udre
  cases h : s.txh <;> simp

/-- A byte class acts where LRX reads a byte, and changes nothing elsewhere. -/
theorem onLineByte_cases (action : State → Result) (s : State) :
    (lineByteReady s = true ∧ onLineByte action s = action s) ∨
      (lineByteReady s = false ∧ onLineByte action s = .next s) := by
  unfold onLineByte
  cases h : lineByteReady s <;> simp

theorem lineByteReady_iff (s : State) :
    lineByteReady s = true ↔
      s.faulted = false ∧ s.lstate = .fetch ∧ s.idx.toNat + 1 < s.lmax.toNat := by
  simp [lineByteReady, hasRoom, and_assoc]

/-- A store step answers the byte stored and the index advanced, or a fault past the top of `DMEM`. -/
theorem storeByte_cases (c : Byte) (s : State) :
    (bufAddr s < dmemSize ∧
        storeByte c s =
          .next (((s.withDmem (Memory.write s.dmem (bufAddr s) c)).withIdx (s.idx + 1#16)).withLState .fetch)) ∨
      (dmemSize ≤ bufAddr s ∧ storeByte c s = .fault (.outsideDmem (bufAddr s))) := by
  rcases memWrite_cases (bufAddr s) c s with ⟨h, e⟩ | ⟨h, e⟩
  · exact .inl ⟨h, by simp [storeByte, e]⟩
  · exact .inr ⟨h, by simp [storeByte, e]⟩

/-- The terminator step answers the closed line, or a fault past the top of `DMEM`. -/
theorem termStep_cases (s : State) :
    (bufAddr s < dmemSize ∧
        termStep s = .next (s.withDmem (Memory.write s.dmem (bufAddr s) byteNUL)).closeLine) ∨
      (dmemSize ≤ bufAddr s ∧ termStep s = .fault (.outsideDmem (bufAddr s))) := by
  rcases memWrite_cases (bufAddr s) byteNUL s with ⟨h, e⟩ | ⟨h, e⟩
  · exact .inl ⟨h, by simp [termStep, e]⟩
  · exact .inr ⟨h, by simp [termStep, e]⟩

/-- A peek goes to `TERM`, without the head of the queue. -/
theorem peekStep_eq (s : State) : peekStep s = .next ((s.withRxq s.rxq.tail).withLState .term) := by
  cases h : s.rxq with
  | nil =>
    have e : s.withRxq [] = s := by cases s; simp_all [State.withRxq]
    simp [peekStep, rxAvail, rxc, h, e]
  | cons c q => simp [peekStep, rxAvail, rxc, h]

/-- An erase step fills `TXH` and goes on, or waits unchanged. -/
theorem sendStep_cases (b : Byte) (l : LState) (s : State) :
    (s.txh = none ∧ sendStep b l s = .next ((s.holdTx b).withLState l)) ∨
      ((∃ c, s.txh = some c) ∧ sendStep b l s = .next s) := by
  rcases txPut_cases b s with ⟨h, e⟩ | ⟨h, e⟩
  · exact .inl ⟨h, by simp [sendStep, e]⟩
  · exact .inr ⟨h, by simp [sendStep, e]⟩

/-- The next move is the scripted one, `CHAN_TX` or `CORE` when it is due, or a free one. -/
theorem nextMove_cases (s : State) :
    (∃ m rest, s.script = m :: rest ∧ nextMove s = (m, s.popMove rest)) ∨
      (s.script = [] ∧ chanTxDue s = true ∧ nextMove s = (.chanTx, s.countTurn (passesCore s .chanTx))) ∨
      (s.script = [] ∧ chanTxDue s = false ∧ coreDue s = true ∧
        nextMove s = (.core, s.countTurn (passesCore s .core))) ∨
      (s.script = [] ∧ chanTxDue s = false ∧ coreDue s = false ∧
        nextMove s =
          (Config.freeMove s.tick, (s.countTurn (passesCore s (Config.freeMove s.tick))).drawMove)) := by
  unfold nextMove
  split
  · exact .inl ⟨_, _, ‹_›, rfl⟩
  · cases h : chanTxDue s <;> cases h' : coreDue s <;> simp_all

/-- A move that no script names takes one from each count that is passed over. -/
theorem nextMove_unscripted {s : State} (h : s.script = []) :
    (nextMove s).2.script = [] ∧ (nextMove s).2.txWait = s.txWait - 1 ∧
      (passesCore s (nextMove s).1 = true → (nextMove s).2.coreWait = s.coreWait - 1) := by
  rcases nextMove_cases s with ⟨_, _, e, _⟩ | ⟨_, _, e⟩ | ⟨_, _, _, e⟩ | ⟨_, _, _, e⟩
  · rw [h] at e
    cases e
  all_goals
    rw [e]
    refine ⟨h, rfl, fun hp => ?_⟩
    dsimp only at hp
    simp [hp]

/-- The state the chosen agent steps from differs from the given one in the model's own fields only. -/
theorem nextMove_state (s : State) :
    ∃ script tick txWait coreWait, (nextMove s).2 =
      { s with script := script, tick := tick, txWait := txWait, coreWait := coreWait } := by
  rcases nextMove_cases s with ⟨_, _, _, e⟩ | ⟨_, _, e⟩ | ⟨_, _, _, e⟩ | ⟨_, _, _, e⟩ <;> rw [e] <;>
    exact ⟨_, _, _, _, rfl⟩

/-- `CHAN_TX` moves the byte of `TXH` to the line, or is not enabled. -/
theorem chanTxStep_cases (s : State) :
    (∃ b, s.txh = some b ∧ s.txen = true ∧ chanTxStep s = .next (s.drainTx b)) ∨
      (chanTxReady s = false ∧ chanTxStep s = .next s) := by
  unfold chanTxStep chanTxReady
  cases h : s.txh <;> cases h' : s.txen <;> simp

end Sys2Proof.Machine
end

