-- ==== Sys2Proof/Laws/PerInstr.lean ====
section
/-! SUPPORT. Per instruction: the bytes of its encoding are as many as its row of the opcode table says, and match
that row's mask and match (30_encoding R76, R84, R86). -/

namespace Sys2Proof.Laws.TableRow

open Sys2Proof.Machine

/-- A well-formed instruction's encoding has its row's length and matches its row. -/
def Statement (i : Instr) : Prop :=
  i.wellFormed = true → (encode i).length = i.row.bytes ∧ i.row.matches (wordOfBytes (encode i)) = true

theorem configure (dsz : BitVec 2) (stp : BitVec 1) (par : BitVec 2) (baud : BitVec 32) :
    Statement (.configure dsz stp par baud) := by
  refine fun _ => ⟨rfl, ?_⟩
  simp only [encode, Instr.row, Machine.wordOfBytes_bytesOfWord, OpcodeRow.matches, rowConfigure, beq_iff_eq]
  ext i hi
  interval_cases i <;> simp [encodeConfigure]

theorem recvLine (maxlen base : Half) : Statement (.recvLine maxlen base) := by
  refine fun _ => ⟨rfl, ?_⟩
  simp only [encode, Instr.row, Machine.wordOfBytes_bytesOfWord, OpcodeRow.matches, rowRecvLine, beq_iff_eq]
  ext i hi
  interval_cases i <;> simp [encodeRecvLine]

theorem rxbCr : Statement .rxbCr := by unfold Statement; decide

theorem rxbLf : Statement .rxbLf := by unfold Statement; decide

theorem rxbBs : Statement .rxbBs := by unfold Statement; decide

theorem rxbDel : Statement .rxbDel := by unfold Statement; decide

theorem rxbData (c : Byte) : Statement (.rxbData c) := by
  intro _
  refine ⟨rfl, ?_⟩
  simp [OpcodeRow.matches, Instr.row]

end Sys2Proof.Laws.TableRow
end

