-- ==== Sys2Proof/Laws/Safety.lean ====
section
/-! SUPPORT. The invariants of 10_state R39 as propositions, and what leaves them alone. -/

namespace Sys2Proof.Machine

theorem busyExact_iff (s : State) : busyExact s = true ↔ (s.busy = true ↔ s.lstate ≠ .idle) := by
  unfold busyExact
  cases s.busy <;> cases s.lstate <;> decide

theorem configuredEnables_iff (s : State) :
    configuredEnables s = true ↔ (s.configured = true → s.txen = true ∧ s.rxen = true) := by
  unfold configuredEnables
  cases s.configured <;> simp

theorem lineInBounds_iff (s : State) :
    lineInBounds s = true ↔
      (s.lstate ≠ .idle → 1 ≤ s.lmax.toNat ∧ s.lbase.toNat + s.lmax.toNat ≤ 65536 ∧
        s.idx.toNat + 1 ≤ s.lmax.toNat) := by
  unfold lineInBounds
  cases s.lstate <;> simp [and_assoc]

theorem countInBounds_iff (s : State) :
    countInBounds s = true ↔ ∀ n, s.count = some n → n.toNat ≤ 65534 := by
  unfold countInBounds
  cases s.count <;> simp

theorem ownedByCore_iff (s : State) (a : Half) :
    ownedByCore s a = true ↔
      s.busy = true ∧ s.lbase.toNat ≤ a.toNat ∧ a.toNat < s.lbase.toNat + s.lmax.toNat := by
  simp [ownedByCore, inLineBuffer]

/-- The model's own fields do not matter to the invariant. -/
theorem Inv.own_fields {s : State} (h : Inv s) (script : List Move) (tick txWait coreWait : Nat) :
    Inv { s with script := script, tick := tick, txWait := txWait, coreWait := coreWait } :=
  ⟨h.spec, h.memory, h.record, h.written, h.div, h.mode⟩

/-- What a step that leaves the configuration and the fault record alone has to show. -/
theorem Inv.of_line {s t : State} (h : Inv s) (hdiv : t.div = s.div) (hmode : t.mode = s.mode)
    (htx : t.txen = s.txen) (hrx : t.rxen = s.rxen) (hcfg : t.configured = s.configured)
    (hflt : t.faulted = s.faulted) (hcause : t.faultCause = s.faultCause) (hinfo : t.faultInfo = s.faultInfo)
    (hbusy : busyExact t = true) (hline : lineInBounds t = true) (hcount : countInBounds t = true)
    (hmem : Memory.wf t.dmem = true) : Inv t where
  spec := by
    refine ⟨hbusy, ?_, hline, hcount⟩
    rw [configuredEnables_iff, htx, hrx, hcfg]
    exact (configuredEnables_iff s).1 h.spec.2.1
  memory := hmem
  record := by
    unfold faultRecordCoherent
    rw [hflt, hcause, hinfo]
    exact h.record
  written := by
    unfold configuredWritten
    rw [hcfg, hdiv, hmode]
    exact h.written
  div := by
    unfold divFits
    rw [hdiv]
    exact h.div
  mode := by
    unfold modeLaidOut
    rw [hmode]
    exact h.mode

end Sys2Proof.Machine
end

