-- ==== Sys2Proof/Laws/Step.lean ====
section
/-! SUPPORT. Everything a step can do, said once: the outcomes of a delivered command word, of a `CORE` step, of any
agent's step and of the machine's step. Later proofs take cases on these and do not unfold the step. -/

namespace Sys2Proof.Machine

/-- Decrementing a positive write index does not wrap. -/
theorem idx_pred {i : Half} (h : 0 < i.toNat) : i - 1#16 = BitVec.ofNat 16 (i.toNat - 1) := by
  apply BitVec.eq_of_toNat_eq
  have := i.isLt
  simp [BitVec.toNat_sub]
  omega

/-- Incrementing the write index. -/
theorem idx_succ (i : Half) : i + 1#16 = BitVec.ofNat 16 (i.toNat + 1) := by
  apply BitVec.eq_of_toNat_eq
  simp

/-- Where LRX reads a byte, the `CORE` step runs the class of the oldest one (R154). -/
theorem coreStep_reads {s : State} {c : Byte} {q : List Byte} (hf : s.faulted = false) (hl : s.lstate = .fetch)
    (hr : hasRoom s = true) (hq : s.rxq = c :: q) :
    coreStep s = exec (decodeByte c s.idx) (s.withRxq q) := by
  simp [coreStep, hf, hl, fetchStep, hr, rxPop, hq]

/-- Everything a delivered command word can do (R193). -/
theorem command_cases (cw : CmdWord) (s : State) :
    (s.faulted = true ∧ hostStep (.command cw) s = .next s) ∨
      (s.faulted = false ∧ ∃ c, hostStep (.command cw) s = .next (raiseFault c cw s)) ∨
      (s.faulted = false ∧ s.busy = false ∧ cmdPar cw ≠ parReserved ∧ cmdBaud cw ≠ 0#32 ∧
        decodeCommand cw = .ok (.configure (cmdDsz cw) (cmdStp cw) (cmdPar cw) (cmdBaud cw)) ∧
        hostStep (.command cw) s =
          .next (configureBody Config.params (cmdDsz cw) (cmdStp cw) (cmdPar cw) (cmdBaud cw) s)) ∨
      (s.faulted = false ∧ s.busy = false ∧ s.configured = true ∧ cmdMaxlen cw ≠ 0#16 ∧
        bufferEnd (cmdBase cw) (cmdMaxlen cw) ≤ dmemSize ∧
        decodeCommand cw = .ok (.recvLine (cmdMaxlen cw) (cmdBase cw)) ∧
        hostStep (.command cw) s = .next (s.openLine (cmdBase cw) (cmdMaxlen cw))) := by
  rcases decodeCommand_cases cw with ⟨h1, h2, e⟩ | ⟨h1, h2, e⟩ | ⟨e', e, h1, h2⟩
  · simp only [hostStep, deliverCommand, e, exec, execConfigure, configureWith, encodeConfigure_fields h1 h2]
    rcases acceptCommand_cases cw [(cmdPar cw == parReserved, .illegalFmt), (cmdBaud cw == 0#32, .baudZero)]
      (configureBody Config.params (cmdDsz cw) (cmdStp cw) (cmdPar cw) (cmdBaud cw)) s with
      ⟨hf, e⟩ | ⟨hf, c, _, e⟩ | ⟨hf, hb, hc, e⟩ <;> rw [e]
    · exact .inl ⟨hf, rfl⟩
    · exact .inr (.inl ⟨hf, c, rfl⟩)
    · refine .inr (.inr (.inl ⟨hf, hb, ?_, ?_, trivial, rfl⟩)) <;> rintro h
      · simp [h] at hc
      · by_cases hp : cmdPar cw = parReserved <;> simp [h, hp] at hc
  · simp only [hostStep, deliverCommand, e, exec, execRecvLine, encodeRecvLine_fields h1 h2]
    rcases acceptCommand_cases cw [(!s.configured, .notConfigured), (cmdMaxlen cw == 0#16, .lenZero),
      (dmemSize < bufferEnd (cmdBase cw) (cmdMaxlen cw), .bufRange)]
      (fun t => t.openLine (cmdBase cw) (cmdMaxlen cw)) s with
      ⟨hf, e⟩ | ⟨hf, c, _, e⟩ | ⟨hf, hb, hc, e⟩ <;> rw [e]
    · exact .inl ⟨hf, rfl⟩
    · exact .inr (.inl ⟨hf, c, rfl⟩)
    · cases hs : s.configured
      · simp [hs] at hc
      by_cases hm : cmdMaxlen cw = 0#16
      · simp [hs, hm] at hc
      by_cases he : dmemSize < bufferEnd (cmdBase cw) (cmdMaxlen cw)
      · simp [hs, hm, he] at hc
      exact .inr (.inr (.inr ⟨hf, hb, rfl, hm, by omega, trivial, rfl⟩))
  · simp only [hostStep, deliverCommand, e]
    cases hf : s.faulted
    · exact .inr (.inl ⟨rfl, .illegalCmd, by simp⟩)
    · exact .inl ⟨rfl, by simp⟩

/-- Everything a `CORE` step can do (R152 to R163), with the state it does it in. -/
inductive CoreStepTo (s : State) : Result → Prop
  | wait : coreEnabled s = false → CoreStepTo s (.next s)
  | full : s.faulted = false → s.lstate = .fetch → hasRoom s = false → CoreStepTo s (.next (s.withLState .term))
  | cr (q : List Byte) : s.faulted = false → s.lstate = .fetch → hasRoom s = true → s.rxq = byteCR :: q →
      CoreStepTo s (.next ((s.withRxq q).withLState .peek))
  | lf (q : List Byte) : s.faulted = false → s.lstate = .fetch → hasRoom s = true → s.rxq = byteLF :: q →
      CoreStepTo s (.next ((s.withRxq q).withLState .term))
  | erase (c : Byte) (q : List Byte) : s.faulted = false → s.lstate = .fetch → hasRoom s = true →
      s.rxq = c :: q → c = byteBS ∨ c = byteDEL → 0 < s.idx.toNat →
      CoreStepTo s (.next (((s.withRxq q).withIdx (s.idx - 1#16)).withLState .eraseSp))
  | store (c : Byte) (q : List Byte) : s.faulted = false → s.lstate = .fetch → hasRoom s = true →
      s.rxq = c :: q → c ≠ byteCR → c ≠ byteLF → ¬ ((c = byteBS ∨ c = byteDEL) ∧ 0 < s.idx.toNat) →
      bufAddr s < dmemSize →
      CoreStepTo s (.next ((((s.withRxq q).withDmem (Memory.write s.dmem (bufAddr s) c)).withIdx
        (s.idx + 1#16)).withLState .fetch))
  | storeOutside : s.faulted = false → s.lstate = .fetch → hasRoom s = true → dmemSize ≤ bufAddr s →
      CoreStepTo s (.fault (.outsideDmem (bufAddr s)))
  | peek : s.faulted = false → s.lstate = .peek →
      CoreStepTo s (.next ((s.withRxq s.rxq.tail).withLState .term))
  | eraseSp : s.faulted = false → s.lstate = .eraseSp → s.txh = none →
      CoreStepTo s (.next ((s.holdTx byteSP).withLState .eraseBs))
  | eraseBs : s.faulted = false → s.lstate = .eraseBs → s.txh = none →
      CoreStepTo s (.next ((s.holdTx byteBS).withLState .fetch))
  | term : s.faulted = false → s.lstate = .term → bufAddr s < dmemSize →
      CoreStepTo s (.next (s.withDmem (Memory.write s.dmem (bufAddr s) byteNUL)).closeLine)
  | termOutside : s.faulted = false → s.lstate = .term → dmemSize ≤ bufAddr s →
      CoreStepTo s (.fault (.outsideDmem (bufAddr s)))

/-- A `CORE` step that reads a byte does what its class says. -/
theorem coreStep_reads_to {s : State} {c : Byte} {q : List Byte} (hf : s.faulted = false) (hl : s.lstate = .fetch)
    (hr : hasRoom s = true) (hq : s.rxq = c :: q) : CoreStepTo s (coreStep s) := by
  have ready : lineByteReady (s.withRxq q) = true := by
    simp [lineByteReady, hf, hl]
    exact hr
  rw [coreStep_reads hf hl hr hq]
  by_cases h1 : c = byteCR
  · subst h1
    rw [show exec (decodeByte byteCR s.idx) (s.withRxq q) = .next ((s.withRxq q).withLState .peek) by
      simp [decodeByte, exec, execRxbCr, onLineByte, ready]]
    exact .cr q hf hl hr hq
  by_cases h2 : c = byteLF
  · subst h2
    rw [show exec (decodeByte byteLF s.idx) (s.withRxq q) = .next ((s.withRxq q).withLState .term) by
      simp [decodeByte, h1, exec, execRxbLf, onLineByte, ready]]
    exact .lf q hf hl hr hq
  by_cases h3 : (c = byteBS ∨ c = byteDEL) ∧ 0 < s.idx.toNat
  · have he : exec (decodeByte c s.idx) (s.withRxq q) = eraseByte (s.withRxq q) := by
      have hi := half_ne_zero_iff.2 h3.2
      rcases h3 with ⟨rfl | rfl, _⟩
      · simp [decodeByte, h1, h2, hi, exec, execRxbBs, onLineByte, ready, eraseOrStore]
      · have hd : byteDEL ≠ byteBS := by decide
        simp [decodeByte, h1, h2, hi, hd, exec, execRxbDel, onLineByte, ready, eraseOrStore]
    rw [he]
    exact .erase c q hf hl hr hq h3.1 h3.2
  · rw [decodeByte_data h1 h2 h3, show exec (.rxbData c) (s.withRxq q) = storeByte c (s.withRxq q) by
      simp [exec, execRxbData, onLineByte, ready]]
    rcases storeByte_cases c (s.withRxq q) with ⟨ha, e⟩ | ⟨ha, e⟩ <;> rw [e]
    · exact .store c q hf hl hr hq h1 h2 h3 ha
    · exact .storeOutside hf hl hr ha

/-- A `CORE` step does one of the things of `CoreStepTo`. -/
theorem coreStep_to (s : State) : CoreStepTo s (coreStep s) := by
  cases hf : s.faulted
  case true =>
    rw [show coreStep s = .next s by simp [coreStep, hf]]
    exact .wait (by simp [coreEnabled, hf])
  cases hl : s.lstate with
  | idle =>
    rw [show coreStep s = .next s by simp [coreStep, hf, hl]]
    exact .wait (by simp [coreEnabled, hl])
  | fetch =>
    cases hr : hasRoom s
    · rw [show coreStep s = .next (s.withLState .term) by
        simp [coreStep, hf, hl, fetchStep, hr, bufferFullStep]]
      exact .full hf hl hr
    · cases hq : s.rxq with
      | nil =>
        rw [show coreStep s = .next s by simp [coreStep, hf, hl, fetchStep, hr, rxPop, hq]]
        exact .wait (by simp [coreEnabled, hl, hr, rxc, hq])
      | cons c q => exact coreStep_reads_to hf hl hr hq
  | peek =>
    rw [show coreStep s = peekStep s by simp [coreStep, hf, hl], peekStep_eq]
    exact .peek hf hl
  | eraseSp =>
    rw [show coreStep s = sendStep byteSP .eraseBs s by simp [coreStep, hf, hl, eraseSpStep]]
    rcases sendStep_cases byteSP .eraseBs s with ⟨h, e⟩ | ⟨⟨c, h⟩, e⟩ <;> rw [e]
    · exact .eraseSp hf hl h
    · exact .wait (by simp [coreEnabled, hl, udre, h])
  | eraseBs =>
    rw [show coreStep s = sendStep byteBS .fetch s by simp [coreStep, hf, hl, eraseBsStep]]
    rcases sendStep_cases byteBS .fetch s with ⟨h, e⟩ | ⟨⟨c, h⟩, e⟩ <;> rw [e]
    · exact .eraseBs hf hl h
    · exact .wait (by simp [coreEnabled, hl, udre, h])
  | term =>
    rw [show coreStep s = termStep s by simp [coreStep, hf, hl]]
    rcases termStep_cases s with ⟨h, e⟩ | ⟨h, e⟩ <;> rw [e]
    · exact .term hf hl h
    · exact .termOutside hf hl h

/-- The moves still scripted do not matter to an action on a read byte. -/
theorem exec_rxb_popMove {i : Instr} (hi : ∃ c idx, i = decodeByte c idx) (s : State) (rest : List Move) :
    exec i (s.popMove rest) = andThen (exec i s) fun t => .next (t.popMove rest) := by
  have line : ∀ (f : State → Result), (f (s.popMove rest) = andThen (f s) fun t => .next (t.popMove rest)) →
      onLineByte f (s.popMove rest) = andThen (onLineByte f s) fun t => .next (t.popMove rest) := fun f h => by
    unfold onLineByte
    rw [show lineByteReady (s.popMove rest) = lineByteReady s from rfl]
    split
    · exact h
    · rfl
  have store : ∀ c, storeByte c (s.popMove rest) = andThen (storeByte c s) fun t => .next (t.popMove rest) :=
    fun c => by
      unfold storeByte memWrite
      rw [show bufAddr (s.popMove rest) = bufAddr s from rfl]
      split <;> rfl
  have erase : ∀ c, eraseOrStore c (s.popMove rest) =
      andThen (eraseOrStore c s) fun t => .next (t.popMove rest) := fun c => by
    unfold eraseOrStore
    rw [show (s.popMove rest).idx = s.idx from rfl]
    split
    · exact store c
    · rfl
  obtain ⟨c, idx, rfl⟩ := hi
  unfold decodeByte
  split
  · exact line (fun t => .next (t.withLState .peek)) rfl
  split
  · exact line (fun t => .next (t.withLState .term)) rfl
  split
  · exact line _ (erase _)
  split
  · exact line _ (erase _)
  · exact line _ (store _)

/-- The moves still scripted do not matter to a `CORE` step. -/
theorem coreStep_popMove (s : State) (rest : List Move) :
    coreStep (s.popMove rest) = andThen (coreStep s) fun t => .next (t.popMove rest) := by
  unfold coreStep
  rw [show (s.popMove rest).faulted = s.faulted from rfl, show (s.popMove rest).lstate = s.lstate from rfl]
  split
  · rfl
  split
  · rfl
  · unfold fetchStep
    rw [show hasRoom (s.popMove rest) = hasRoom s from rfl]
    split
    · rcases rxPop_cases s with ⟨h, e⟩ | ⟨c, q, h, e⟩
      · have e' : rxPop (s.popMove rest) = none := by simp [rxPop, h]
        rw [e, e']
        rfl
      · have e' : rxPop (s.popMove rest) = some (c, (s.withRxq q).popMove rest) := by simp [rxPop, h]; rfl
        rw [e, e']
        exact exec_rxb_popMove ⟨c, s.idx, rfl⟩ (s.withRxq q) rest
    · rfl
  · rw [peekStep_eq, peekStep_eq]
    rfl
  · rcases sendStep_cases byteSP .eraseBs s with ⟨h, e⟩ | ⟨⟨c, h⟩, e⟩
    · simp only [eraseSpStep, e]
      simp [sendStep, txPut, udre, h]
      rfl
    · simp only [eraseSpStep, e]
      simp [sendStep, txPut, udre, h]
  · rcases sendStep_cases byteBS .fetch s with ⟨h, e⟩ | ⟨⟨c, h⟩, e⟩
    · simp only [eraseBsStep, e]
      simp [sendStep, txPut, udre, h]
      rfl
    · simp only [eraseBsStep, e]
      simp [sendStep, txPut, udre, h]
  · unfold termStep memWrite
    rw [show bufAddr (s.popMove rest) = bufAddr s from rfl]
    split <;> rfl

/-- Everything an agent's step can do, by the move made. -/
inductive AgentStepTo (s : State) : Move → Result → Prop
  | core (r : Result) : CoreStepTo s r → AgentStepTo s .core r
  | received (b : Byte) : s.rxen = true → AgentStepTo s (.chanRx b) (.next (s.withRxq (s.rxq ++ [b])))
  | receiverOff (b : Byte) : s.rxen = false → AgentStepTo s (.chanRx b) (.next s)
  | sent (b : Byte) : s.txen = true → s.txh = some b → AgentStepTo s .chanTx (.next (s.drainTx b))
  | notReady : chanTxReady s = false → AgentStepTo s .chanTx (.next s)
  | reset : AgentStepTo s (.host .reset) (.next (applyReset s))
  | readReg (n : Nat) : AgentStepTo s (.host (.readReg n)) (.next s)
  | readMem (a : Half) : ownedByCore s a = false → AgentStepTo s (.host (.readMem a)) (.next s)
  | readOwned (a : Half) : ownedByCore s a = true →
      AgentStepTo s (.host (.readMem a)) (.refused (.bufferOwnedByCore a))
  | writeMem (a : Half) (v : Byte) : ownedByCore s a = false →
      AgentStepTo s (.host (.writeMem a v)) (.next (s.withDmem (Memory.write s.dmem a.toNat v)))
  | writeOwned (a : Half) (v : Byte) : ownedByCore s a = true →
      AgentStepTo s (.host (.writeMem a v)) (.refused (.bufferOwnedByCore a))
  | ignored (cw : CmdWord) : s.faulted = true → AgentStepTo s (.host (.command cw)) (.next s)
  | faulted (cw : CmdWord) (c : FaultCause) : s.faulted = false →
      AgentStepTo s (.host (.command cw)) (.next (raiseFault c cw s))
  | configured (cw : CmdWord) : s.faulted = false → s.busy = false → cmdPar cw ≠ parReserved →
      cmdBaud cw ≠ 0#32 →
      decodeCommand cw = .ok (.configure (cmdDsz cw) (cmdStp cw) (cmdPar cw) (cmdBaud cw)) →
      AgentStepTo s (.host (.command cw))
        (.next (configureBody Config.params (cmdDsz cw) (cmdStp cw) (cmdPar cw) (cmdBaud cw) s))
  | lineOpened (cw : CmdWord) : s.faulted = false → s.busy = false → s.configured = true →
      cmdMaxlen cw ≠ 0#16 → bufferEnd (cmdBase cw) (cmdMaxlen cw) ≤ dmemSize →
      decodeCommand cw = .ok (.recvLine (cmdMaxlen cw) (cmdBase cw)) →
      AgentStepTo s (.host (.command cw)) (.next (s.openLine (cmdBase cw) (cmdMaxlen cw)))

/-- An agent's step does one of the things of `AgentStepTo`. -/
theorem agentStep_to (m : Move) (s : State) : AgentStepTo s m (agentStep m s) := by
  cases m with
  | core => exact .core _ (coreStep_to s)
  | chanRx b =>
    cases h : s.rxen
    · rw [show agentStep (.chanRx b) s = .next s by simp [agentStep, chanRxStep, h]]
      exact .receiverOff b h
    · rw [show agentStep (.chanRx b) s = .next (s.withRxq (s.rxq ++ [b])) by simp [agentStep, chanRxStep, h]]
      exact .received b h
  | chanTx =>
    rcases chanTxStep_cases s with ⟨b, h1, h2, e⟩ | ⟨h, e⟩ <;> rw [show agentStep .chanTx s = _ from e]
    · exact .sent b h2 h1
    · exact .notReady h
  | host h =>
    cases h with
    | reset => exact .reset
    | readReg n => exact .readReg n
    | readMem a =>
      cases ho : ownedByCore s a
      · rw [show agentStep (.host (.readMem a)) s = .next s by simp [agentStep, hostStep, ho]]
        exact .readMem a ho
      · rw [show agentStep (.host (.readMem a)) s = .refused (.bufferOwnedByCore a) by
          simp [agentStep, hostStep, ho]]
        exact .readOwned a ho
    | writeMem a v =>
      cases ho : ownedByCore s a
      · rw [show agentStep (.host (.writeMem a v)) s = .next (s.withDmem (Memory.write s.dmem a.toNat v)) by
          simp only [agentStep, hostStep, ho]; exact memWrite_inside a.isLt v s]
        exact .writeMem a v ho
      · rw [show agentStep (.host (.writeMem a v)) s = .refused (.bufferOwnedByCore a) by
          simp [agentStep, hostStep, ho]]
        exact .writeOwned a v ho
    | command cw =>
      show AgentStepTo s _ (hostStep (.command cw) s)
      rcases command_cases cw s with ⟨hf, e⟩ | ⟨hf, c, e⟩ | ⟨hf, hb, hp, hz, hd, e⟩ | ⟨hf, hb, hc, hm, he, hd, e⟩ <;>
        rw [e]
      · exact .ignored cw hf
      · exact .faulted cw c hf
      · exact .configured cw hf hb hp hz hd
      · exact .lineOpened cw hf hb hc hm he hd

/-- The machine's step does one of the things of `AgentStepTo`, for the move chosen. -/
theorem step_to (s : State) : AgentStepTo (nextMove s).2 (nextMove s).1 (step s) := agentStep_to _ _

end Sys2Proof.Machine
end

