-- ==== Sys2Proof/Laws/Runs.lean ====
section
/-! SUPPORT. What runs do: one step of a run, and that a good end stays one (70 R234). -/

namespace Sys2Proof.Machine

/-- A run whose first step answers a next state goes on from it. -/
theorem core_run_next {s t : State} (h : step s = .next t) (n : Nat) : core.run (n + 1) s = core.run n t := by
  have h' : core.step s = .next t := h
  simp only [Host.Core.run.eq_def core (n + 1) s, h']

/-- A run whose first step is refused is refused. -/
theorem core_run_refused {s : State} {r : Refusal} (h : step s = .refused r) (n : Nat) :
    core.run (n + 1) s = .refused r := by
  have h' : core.step s = .refused r := h
  simp only [Host.Core.run.eq_def core (n + 1) s, h']

/-- Where the host issues no further command, the next move is none, and none follows it. -/
theorem noFurtherCommand_nextMove {s : State} (h : noFurtherCommand s) :
    (∀ cw, (nextMove s).1 ≠ .host (.command cw)) ∧ noFurtherCommand (nextMove s).2 := by
  obtain ⟨hs, hf⟩ := h
  rcases nextMove_cases s with ⟨m, rest, e, e'⟩ | ⟨_, _, e'⟩ | ⟨_, _, _, e'⟩ | ⟨_, _, _, e'⟩ <;> rw [e']
  · rw [e] at hs
    refine ⟨fun cw hm => hs cw ?_, fun cw hm => hs cw ?_, hf⟩
    · simp [← hm]
    · exact List.mem_cons_of_mem _ hm
  · exact ⟨by simp, hs, hf⟩
  · exact ⟨by simp, hs, hf⟩
  · exact ⟨fun cw => hf s.tick cw (Nat.le_refl _), hs, fun n cw hn => hf n cw (by simp at hn; omega)⟩

/-- A good end stays one, whatever the other agents do and whatever the host reads, writes or resets (R234). -/
theorem endsWell_step {s t : State} (h : endsWell s) (hs : step s = .next t) : endsWell t := by
  obtain ⟨hf, hl, hc⟩ := h
  obtain ⟨hm, hc⟩ := noFurtherCommand_nextMove hc
  obtain ⟨script, tick, txWait, coreWait, e⟩ := nextMove_state s
  have k := step_to s
  rw [hs] at k
  have hf' : (nextMove s).2.faulted = false := by rw [e]; exact hf
  have hl' : (nextMove s).2.lstate = .idle := by rw [e]; exact hl
  revert k hm hc hf' hl'
  generalize (nextMove s).1 = m
  generalize (nextMove s).2 = u
  intro hm hc k hf' hl'
  cases k with
  | core _ k => cases k <;> simp_all [endsWell]
  | reset => exact ⟨rfl, rfl, hc⟩
  | ignored cw => exact absurd rfl (hm cw)
  | faulted cw => exact absurd rfl (hm cw)
  | configured cw => exact absurd rfl (hm cw)
  | lineOpened cw => exact absurd rfl (hm cw)
  | _ => exact ⟨hf', hl', hc⟩

end Sys2Proof.Machine
end

