-- ==== Sys2Proof/Tests/Slice0.lean ====
section
/-! SUPPORT. The model's own tests: expected values come from the spec's vectors (95_test_vectors) or its encodings. -/

namespace Sys2Proof.Tests

open Sys2Proof Sys2Proof.Machine

/-! ### Well-formedness: one ill-formed term per check -/

theorem test_wf_data_is_not_cr : (Instr.rxbData 0x0D#8).wellFormed = false := by decide

theorem test_wf_data_is_not_lf : (Instr.rxbData 0x0A#8).wellFormed = false := by decide

theorem test_wf_bs_needs_index : Instr.rxbBs.wellFormedAt 0#16 = false := by decide

theorem test_wf_del_needs_index : Instr.rxbDel.wellFormedAt 0#16 = false := by decide

theorem test_wf_bs_is_not_data_later : (Instr.rxbData 0x08#8).wellFormedAt 1#16 = false := by decide

theorem test_wf_del_is_not_data_later : (Instr.rxbData 0x7F#8).wellFormedAt 3#16 = false := by decide

/-! ### Decoding: words written out from the spec's encodings -/

/-- Format C bit by bit (R72, R74): reserved 63:48, `BAUD` 9600, reserved 15:13, `PAR` 10, `STP` 1, `DSZ` 11, `OP`
(95 vector M2). -/
theorem test_decode_configure_word :
    decodeCommand
        0b0000000000000000_00000000000000000010010110000000_000_10_1_11_00000001#64 =
      .ok (.configure 0b11#2 0b1#1 0b10#2 9600#32) := by decide

/-- Format L bit by bit (R73): reserved, `BASE` 0x0100, `MAXLEN` 10, reserved, `OP` (95 vector W3). -/
theorem test_decode_recv_line_word :
    decodeCommand 0b0000000000000000_0000000100000000_0000000000001010_00000000_00000010#64 =
      .ok (.recvLine 10#16 0x0100#16) := by decide

/-- The word as bytes, the least significant first (R70). -/
theorem test_decode_bytes :
    decode .commandPort [0x02#8, 0x00#8, 0x0A#8, 0x00#8, 0x00#8, 0x01#8, 0x00#8, 0x00#8] =
      .ok (.recvLine 10#16 0x0100#16) := by decide

/-- 95 vectors FT1 to FT5. -/
theorem test_decode_illegal_words :
    decodeCommand 0x0000000000000000#64 = .error (.reservedOpcode 0x00#8) ∧
      decodeCommand 0x0000000025800303#64 = .error (.reservedOpcode 0x03#8) ∧
      decodeCommand 0x0000000025802301#64 = .error .reservedBits ∧
      decodeCommand 0x0001000025800301#64 = .error .reservedBits ∧
      decodeCommand 0x00000100000A0102#64 = .error .reservedBits := by decide

/-- Not eight bytes (R84). -/
theorem test_decode_wrong_length : decode .commandPort [0x02#8] = .error .wrongLength := by decide

/-- 95 vectors CL1 to CL7. -/
theorem test_decode_byte_classes :
    decodeByte 0b00001101#8 0#16 = .rxbCr ∧ decodeByte 0b00001101#8 7#16 = .rxbCr ∧
      decodeByte 0b00001010#8 0#16 = .rxbLf ∧
      decodeByte 0b00001000#8 0#16 = .rxbData 0x08#8 ∧ decodeByte 0b00001000#8 1#16 = .rxbBs ∧
      decodeByte 0b01111111#8 0#16 = .rxbData 0x7F#8 ∧ decodeByte 0b01111111#8 3#16 = .rxbDel := by decide

/-- 95 vectors CL8 to CL12. -/
theorem test_decode_byte_data :
    decodeByte 0x00#8 2#16 = .rxbData 0x00#8 ∧ decodeByte 0xFF#8 0#16 = .rxbData 0xFF#8 ∧
      decodeByte 0x0C#8 0#16 = .rxbData 0x0C#8 ∧ decodeByte 0x8D#8 1#16 = .rxbData 0x8D#8 := by decide

/-- The rows of the opcode table, by their match bits (R86). -/
theorem test_decode_table_words :
    decodeTableWord 64 0x1 = some (.configure 0 0 0 0) ∧ decodeTableWord 64 0x2 = some (.recvLine 0 0) ∧
      decodeTableWord 8 0x0D = some .rxbCr ∧ decodeTableWord 8 0x0A = some .rxbLf ∧
      decodeTableWord 8 0x08 = some .rxbBs ∧ decodeTableWord 8 0x7F = some .rxbDel ∧
      decodeTableWord 8 0x00 = some (.rxbData 0) := by decide

/-- R85's two lines and their words. -/
theorem test_assemble_configure :
    assemble ['C', 'O', 'N', 'F', 'I', 'G', 'U', 'R', 'E', ' ', '8', 'E', '2', ',', ' ', '1', '1', '5', '2', '0',
      '0'] = some 0x00000001C2001701#64 := by decide

theorem test_assemble_recv_line :
    assemble ['R', 'E', 'C', 'V', '_', 'L', 'I', 'N', 'E', ' ', '0', 'x', '0', '1', '0', '0', ',', ' ', '1', '0',
      ' ', ';', ' ', 'x'] = some 0x00000100000A0002#64 := by decide

/-- R85: `baud` starts at 1. -/
theorem test_assemble_baud_zero :
    assemble ['C', 'O', 'N', 'F', 'I', 'G', 'U', 'R', 'E', ' ', '8', 'N', '1', ',', '0'] = none := by decide

/-! ### CONFIGURE under the vectors' parameters (95 §2.1, §2.2) -/

/-- `CLK_FREQ = 16 000 000`, with a given `DIV_W` and select bit. -/
def vecParams (divWLess8 : Fin 9) (sel : Bool) : Params := ⟨15999999, divWLess8, sel⟩

/-- What a `CONFIGURE 8N1` from reset leaves: `DIV`, `MODE`, `CTRL`, `STATUS`. -/
def configured8N1 (p : Params) (baud : BitVec 32) : Option Half × Option Byte × Byte × Byte :=
  let t := configureWith p 3 0 0 baud State.reset
  (t.div, t.mode, ctrlByte t, statusByte t)

/-- V1, V3. -/
theorem test_configure_speeds :
    configured8N1 (vecParams 8 false) 9600 = (some 208, some 0x06, 0x07, 0x01) ∧
      configured8N1 (vecParams 8 false) 2400 = (some 416, some 0x06, 0x03, 0x01) := by decide

/-- V8, V11, V13: 255 keeps double speed, 256 falls back, an overflow is cut and flagged; V25: an 8-bit register. -/
theorem test_configure_edges :
    configured8N1 (vecParams 8 false) 7813 = (some 255, some 0x06, 0x07, 0x01) ∧
      configured8N1 (vecParams 8 false) 7812 = (some 128, some 0x06, 0x03, 0x01) ∧
      configured8N1 (vecParams 8 false) 15 = (some 0x046A, some 0x06, 0x03, 0x05) ∧
      configured8N1 (vecParams 0 false) 2400 = (some 160, some 0x06, 0x03, 0x05) := by decide

/-- M2, M7 with and without the select bit. -/
theorem test_mode_bytes :
    modeByte (vecParams 8 false) 3 1 0b10 = 0x2E ∧ modeByte (vecParams 8 true) 3 1 0b10 = 0xAE ∧
      modeByte (vecParams 8 false) 1 1 0b11 = 0x3A ∧ modeByte (vecParams 8 true) 1 1 0b11 = 0xBA := by decide

/-! ### States for the tests and the witnesses -/

/-- V1 has been accepted (95 §2.3). -/
def configuredState : State :=
  { State.reset with div := some 208, mode := some 0x06, txen := true, rxen := true, u2x := true, configured := true }

/-- A line into a buffer of `n` bytes at 0x0100, `i` bytes accepted, with bytes waiting. -/
def lineState (n i : Half) (q : List Byte) : State :=
  { configuredState with busy := true, lstate := .fetch, lbase := 0x0100, lmax := n, idx := i, rxq := q }

/-- A core halted by a `BUSY` fault in the middle of a line (95 FT16). -/
def haltedState : State :=
  { lineState 10 2 [0x0D] with faulted := true, faultCause := 0x06, faultInfo := 0x0000000025800301 }

/-- One step with a scripted move. -/
def after (m : Move) (s : State) : Option State := nextState? (step { s with script := [m] })

/-! ### One step each -/

/-- FT14: the end equals 2^16, accepted; `STATUS` 0x03. -/
theorem test_recv_line_top_of_memory :
    ((after (.host (.command 0x00000001FFFF0002#64)) configuredState).map fun t =>
      (t.lstate, t.lbase, t.lmax, statusByte t)) = some (.fetch, 0x0001, 0xFFFF, 0x03) := by decide

/-- FT13: one more is `BUF_RANGE`. -/
theorem test_recv_line_past_top :
    ((after (.host (.command 0x00000002FFFF0002#64)) configuredState).map fun t =>
      (t.lstate, t.faultCause, t.faultInfo, statusByte t)) = some (.idle, 0x05, 0x00000002FFFF0002, 0x09) := by
  decide

/-- FT8 and FT10: which fault is reported when two apply. -/
theorem test_fault_priority :
    ((after (.host (.command 0x0000000000000B01#64)) State.reset).map (·.faultCause)) = some 0x02 ∧
      ((after (.host (.command 0x0000010000000002#64)) State.reset).map (·.faultCause)) = some 0x07 := by decide

/-- FT16 and FT18: `BUSY`, and `ILLEGAL_CMD` before it. -/
theorem test_fault_while_busy :
    ((after (.host (.command 0x0000000025800301#64)) (lineState 10 1 [])).map fun t =>
        (t.faultCause, statusByte t, t.idx)) = some (0x06, 0x0B, 1) ∧
      ((after (.host (.command 0#64)) (lineState 10 1 [])).map (·.faultCause)) = some 0x01 := by decide

/-- FT19: a command after a fault is ignored. -/
theorem test_command_after_fault :
    after (.host (.command 0x00000200000A0002#64)) haltedState = some haltedState := by decide

/-- 95 §2.4 step 15. -/
theorem test_rxb_cr :
    ((after .core (lineState 10 2 [0x0D, 0x0A])).map fun t => (t.lstate, t.idx, t.rxq)) =
      some (.peek, 2, [0x0A]) := by decide

/-- R156's example. -/
theorem test_rxb_lf :
    ((after .core (lineState 10 1 [0x0A, 0x0D])).map fun t => (t.lstate, t.idx, t.rxq)) =
      some (.term, 1, [0x0D]) := by decide

/-- 95 §2.4 step 10. -/
theorem test_rxb_bs :
    ((after .core (lineState 10 2 [0x08])).map fun t => (t.lstate, t.idx, t.dmem)) =
      some (.eraseSp, 1, []) := by decide

/-- R157's example. -/
theorem test_rxb_del :
    ((after .core (lineState 10 2 [0x7F])).map fun t => (t.lstate, t.idx)) = some (.eraseSp, 1) := by decide

/-- R158's example. -/
theorem test_rxb_data :
    ((after .core (lineState 10 1 [0x43])).map fun t => (t.lstate, t.idx, t.dmem)) =
      some (.fetch, 2, [(0x0101, 0x43)]) := by decide

/-- L6, L23: a backspace or a delete on an empty buffer is stored. -/
theorem test_rxb_erase_on_empty :
    ((after .core (lineState 10 0 [0x08])).map fun t => (t.lstate, t.idx, t.dmem)) =
        some (.fetch, 1, [(0x0100, 0x08)]) ∧
      ((after .core (lineState 10 0 [0x7F])).map fun t => (t.lstate, t.idx, t.dmem)) =
        some (.fetch, 1, [(0x0100, 0x7F)]) := by decide

/-- L3 and L5: a full buffer reads no byte. -/
theorem test_fetch_full :
    ((after .core (lineState 1 0 [])).map (·.lstate)) = some .term ∧
      ((after .core (lineState 4 3 [0x44, 0x0D])).map fun t => (t.lstate, t.rxq)) =
        some (.term, [0x44, 0x0D]) := by decide

/-- L22: no byte to read, the step waits. -/
theorem test_fetch_waits : after .core (lineState 10 2 []) = some (lineState 10 2 []) := by decide

/-- L8, L10 and L11: the peek takes one byte, whatever it is, or none. -/
theorem test_peek :
    ((after .core { lineState 10 1 [0x0D, 0x0A] with lstate := .peek }).map fun t => (t.lstate, t.rxq)) =
        some (.term, [0x0A]) ∧
      ((after .core { lineState 10 1 [] with lstate := .peek }).map fun t => (t.lstate, t.rxq)) =
        some (.term, []) := by decide

/-- 95 §2.4 steps 11 to 13, X6. -/
theorem test_erase_steps :
    ((after .core { lineState 10 1 [] with lstate := .eraseSp }).map fun t => (t.lstate, t.txh)) =
        some (.eraseBs, some 0x20) ∧
      ((after .core { lineState 10 1 [] with lstate := .eraseBs, txh := some 0x20 }).map fun t =>
        (t.lstate, t.txh)) = some (.eraseBs, some 0x20) ∧
      ((after .core { lineState 10 1 [] with lstate := .eraseBs }).map fun t => (t.lstate, t.txh)) =
        some (.fetch, some 0x08) := by decide

/-- 95 §2.4 step 17. -/
theorem test_term :
    ((after .core { lineState 10 2 [] with lstate := .term }).map fun t =>
      (t.lstate, t.count, t.dmem, statusByte t)) = some (.idle, some 2, [(0x0102, 0x00)], 0x01) := by decide

/-- X7, X8, X9. -/
theorem test_channel :
    ((after .chanTx { configuredState with txh := some 0x20, txline := [0x08] }).map fun t =>
        (t.txh, t.txline)) = some (none, [0x08, 0x20]) ∧
      after (.chanRx 0x41) State.reset = some State.reset ∧ after .chanTx State.reset = some State.reset := by
  decide

/-- RD1 to RD5. -/
theorem test_register_reads_at_reset :
    readReg State.reset 0 = none ∧ readReg State.reset 2 = some 0 ∧ readReg State.reset 6 = none ∧
      readReg State.reset 7 = some 1 ∧ readReg State.reset 8 = none := by decide

/-- RD10, and its lowest byte (R52). -/
theorem test_register_reads_after_fault :
    readReg haltedState 5 = some 0x0000000025800301 ∧ readReg haltedState 3 = some 0x0B ∧
      readRegByte haltedState 5 0 = some 0x01 ∧ readRegByte haltedState 5 8 = none := by decide

/-- Z1 and Z2: reset in the middle of a line, and after a fault, keeps `DMEM` and nothing else. -/
theorem test_reset :
    after (.host .reset) { lineState 10 2 [] with txh := some 0x20, dmem := [(0x0100, 0x41), (0x0101, 0x42)] } =
        some { State.reset with dmem := [(0x0100, 0x41), (0x0101, 0x42)] } ∧
      after (.host .reset) haltedState = some State.reset := by decide

/-- R226: the host writes `DMEM` outside the busy buffer, and has no move inside it. -/
theorem test_host_memory :
    ((after (.host (.writeMem 0x010A 0x55)) (lineState 10 2 [])).map (·.dmem)) = some [(0x010A, 0x55)] ∧
      after (.host (.writeMem 0x0109 0x55)) (lineState 10 2 []) = none := by decide

/-- The placing of an instruction where the next step takes it from. -/
theorem test_first_instruction :
    ((nextState? (step (State.reset.withFetchWord 64 0x2))).map (·.faultCause)) = some 0x07 ∧
      ((nextState? (step (State.reset.withFetchWord 8 0x7F))).map fun t => (t.lstate, t.idx)) =
        some (.eraseSp, 0) ∧
      ((nextState? (step (State.reset.withFetchWord 8 0x00))).map fun t => (t.idx, t.dmem)) =
        some (2, [(1, 0)]) := by decide

/-- R150's example (95 L1) and R165's: the whole line by the sequential procedure of R172. -/
theorem test_procedure :
    receiveLine 0x0100 10 0 [] [] [0x41, 0x42, 0x08, 0x43, 0x0D, 0x0A] =
        some ⟨[(0x0100, 0x41), (0x0101, 0x43), (0x0102, 0x00)], 2, [0x20, 0x08], []⟩ ∧
      receiveLine 0x0100 10 0 [] [] [0x41, 0x42, 0x43, 0x08, 0x08, 0x0D] =
        some ⟨[(0x0100, 0x41), (0x0101, 0x00), (0x0102, 0x43)], 1, [0x20, 0x08, 0x20, 0x08], []⟩ := by decide

/-! ### Witnesses: a concrete state and operands that meet the hypotheses of each obligation -/

theorem witness_DecodeOfEncodeIsTheInstruction :
    (Instr.configure 3 1 0b11 0xFFFFFFFF).wellFormedAt 0 = true ∧
      (Instr.recvLine 0xFFFF 0xFFFF).wellFormedAt 0 = true ∧ Instr.rxbCr.wellFormedAt 0 = true ∧
      Instr.rxbLf.wellFormedAt 0 = true ∧ Instr.rxbBs.wellFormedAt 1 = true ∧ Instr.rxbDel.wellFormedAt 1 = true ∧
      (Instr.rxbData 0x08).wellFormedAt 0 = true ∧ (Instr.rxbData 0xFF).wellFormedAt 1 = true := by decide

theorem witness_EncodeOfDecodedWordIsTheWord :
    decodeCommand 0x0000FFFFFFFF1F01#64 = .ok (.configure 3 1 0b11 0xFFFFFFFF) ∧
      decodeCommand 0x0000FFFFFFFF0002#64 = .ok (.recvLine 0xFFFF 0xFFFF) := by decide

/-- A word no instruction decodes from. -/
theorem no_instruction {cw : CmdWord} {e : DecodeError} (h : decodeCommand cw = .error e) :
    ¬ ∃ i, decodeCommand cw = .ok i := by
  rw [h]
  rintro ⟨i, hi⟩
  cases hi

theorem witness_IllegalWordsFaultIllegalCmd :
    (¬ ∃ i, decodeCommand 0x0000000025800303#64 = .ok i) ∧ State.reset.faulted = false :=
  ⟨no_instruction (e := .reservedOpcode 0x03) (by decide), rfl⟩

theorem witness_ModeByteLayout :
    State.reset.faulted = false ∧ State.reset.busy = false ∧ 0b10#2 ≠ 0b01#2 ∧ 9600#32 ≠ 0#32 := by decide

theorem witness_ModeByteValues :
    modeByte (vecParams 8 true) 3 1 0b10 = modeByte (vecParams 8 true) 3 1 0b10 ∧ 0b10#2 ≠ 0b01#2 ∧
      (3#2, 1#1, 0b11#2, 0x3E#8) ∈ modeTable := by decide

theorem witness_ConfigureCompletes :
    configuredState.faulted = false ∧ configuredState.busy = false ∧ 0b11#2 ≠ 0b01#2 ∧ 1#32 ≠ 0#32 := by decide

theorem witness_ConfigureOperandFaults :
    State.reset.faulted = false ∧ State.reset.busy = false ∧ 0b01#2 = 0b01#2 ∧ 0b00#2 ≠ 0b01#2 ∧ 0#32 = 0#32 := by
  decide

theorem witness_CeilDivIsLeast : 1 ≤ 3 ∧ 10 ≤ 4 * 3 := by decide

theorem witness_DivisorArithmeticIsExact : 0xFFFFFFFF#32 ≠ 0#32 := by decide

theorem witness_DoubleSpeedThreshold :
    State.reset.faulted = false ∧ State.reset.busy = false ∧ 0b00#2 ≠ 0b01#2 ∧ 7813#32 ≠ 0#32 := by decide

/-- Also of the clause on normal speed. -/
theorem witness_NormalSpeedBounds :
    State.reset.faulted = false ∧ State.reset.busy = false ∧ 0b00#2 ≠ 0b01#2 ∧ 7812#32 ≠ 0#32 ∧
      (configureWith (vecParams 8 false) 3 0 0 7812 State.reset).u2x = false := by decide

theorem witness_EffectiveRateNotAboveRequested :
    State.reset.faulted = false ∧ State.reset.busy = false ∧ 0b00#2 ≠ 0b01#2 ∧ 16#32 ≠ 0#32 ∧
      (configureWith (vecParams 8 false) 3 0 0 16 State.reset).divOvf = false := by decide

theorem witness_ConfigureOverwrites :
    configuredState.faulted = false ∧ configuredState.busy = false ∧ 0b00#2 ≠ 0b01#2 ∧ 9600#32 ≠ 0#32 := by decide

/-- The end equals 2^16. -/
theorem witness_RecvLineCompletes :
    configuredState.faulted = false ∧ configuredState.busy = false ∧ configuredState.configured = true ∧
      1 ≤ (0xFFFF#16).toNat ∧ (1#16).toNat + (0xFFFF#16).toNat ≤ 65536 := by decide

/-- One state for each clause; the last buffer passes the top by one byte. -/
theorem witness_RecvLineOperandFaults :
    (State.reset.faulted = false ∧ State.reset.busy = false ∧ State.reset.configured = false) ∧
      (configuredState.faulted = false ∧ configuredState.busy = false ∧ configuredState.configured = true ∧
        0#16 = 0#16) ∧
      1#16 ≠ 0#16 ∧ 65536 < (0xFFFF#16).toNat + (2#16).toNat := by decide

theorem witness_CommandFrame :
    (∃ t, exec (.configure 3 0 0 9600) State.reset = .next t) ∧
      ∃ t, exec (.recvLine 10 0x0100) configuredState = .next t := ⟨⟨_, rfl⟩, _, rfl⟩

theorem witness_TerminatorBytesComplete :
    (lineState 4 2 []).faulted = false ∧ (lineState 4 2 []).lstate = .fetch ∧
      (lineState 4 2 []).idx.toNat + 1 < (lineState 4 2 []).lmax.toNat := by decide

theorem witness_EraseBytesComplete :
    (lineState 4 1 []).faulted = false ∧ (lineState 4 1 []).lstate = .fetch ∧
      (lineState 4 1 []).idx.toNat + 1 < (lineState 4 1 []).lmax.toNat ∧ 0 < (lineState 4 1 []).idx.toNat := by decide

/-- The last place before the terminator's. -/
theorem witness_DataByteCompletes :
    (lineState 4 2 []).faulted = false ∧ (lineState 4 2 []).lstate = .fetch ∧
      (lineState 4 2 []).idx.toNat + 1 < (lineState 4 2 []).lmax.toNat ∧
      (lineState 4 2 []).lbase.toNat + (lineState 4 2 []).idx.toNat < 65536 := by decide

theorem witness_EraseOnEmptyIsStored :
    (0x08#8 = 0x08#8 ∨ 0x08#8 = 0x7F#8) ∧ (0x7F#8 = 0x08#8 ∨ 0x7F#8 = 0x7F#8) ∧
      (lineState 2 0 []).faulted = false ∧ (lineState 2 0 []).lstate = .fetch ∧ (lineState 2 0 []).idx = 0#16 ∧
      1 < (lineState 2 0 []).lmax.toNat := by decide

/-- A `NUL` later in the line, and a delete at its start. -/
theorem witness_EveryOtherByteIsStored :
    (0x00#8 ≠ 0x0D#8 ∧ 0x00#8 ≠ 0x0A#8 ∧ 0x00#8 ≠ 0x08#8 ∧ 0x00#8 ≠ 0x7F#8 ∧
      (lineState 4 2 []).faulted = false ∧ (lineState 4 2 []).lstate = .fetch ∧
      (lineState 4 2 []).idx.toNat + 1 < (lineState 4 2 []).lmax.toNat ∧
      (lineState 4 2 []).lbase.toNat + (lineState 4 2 []).idx.toNat < 65536) ∧
    0x7F#8 ≠ 0x0D#8 ∧ 0x7F#8 ≠ 0x0A#8 ∧ ¬ 0 < (lineState 4 0 []).idx.toNat := by decide

theorem witness_ReceivedByteFrame :
    (∃ t, exec .rxbCr (lineState 4 2 []) = .next t) ∧ (∃ t, exec .rxbLf (lineState 4 2 []) = .next t) ∧
      (∃ t, exec .rxbBs (lineState 4 2 []) = .next t) ∧ (∃ t, exec .rxbDel (lineState 4 0 []) = .next t) ∧
      ∃ t, exec (.rxbData 0x41) (lineState 4 2 []) = .next t :=
  ⟨⟨_, rfl⟩, ⟨_, rfl⟩, ⟨_, rfl⟩, ⟨_, rfl⟩, _, rfl⟩

/-- A buffer that has just filled, and one of the terminator alone. -/
theorem witness_FullBufferEndsLine :
    (lineState 4 3 []).faulted = false ∧ (lineState 4 3 []).lstate = .fetch ∧
      (lineState 4 3 []).lmax.toNat - 1 ≤ (lineState 4 3 []).idx.toNat ∧
      (lineState 1 0 []).lmax.toNat - 1 ≤ (lineState 1 0 []).idx.toNat := by decide

/-- A line in a given state of LRX. -/
def lineAt (l : LState) (q : List Byte) (h : Option Byte) : State := { lineState 4 3 q with lstate := l, txh := h }

theorem witness_PeekDiscardsOneByte :
    (lineAt .peek [] none).faulted = false ∧ (lineAt .peek [] none).lstate = .peek ∧
      (lineAt .peek [] none).rxq = [] ∧ (lineAt .peek [0x41, 0x0A] none).rxq = 0x41 :: [0x0A] := by decide

theorem witness_EraseSequenceSteps :
    ((lineAt .eraseSp [] none).faulted = false ∧ (lineAt .eraseSp [] none).lstate = .eraseSp ∧
      (lineAt .eraseSp [] none).txh = none) ∧
    ((lineAt .eraseBs [] none).faulted = false ∧ (lineAt .eraseBs [] none).lstate = .eraseBs ∧
      (lineAt .eraseBs [] none).txh = none) ∧
    (lineAt .eraseBs [] (some 0x20)).lstate = .eraseBs ∧ (lineAt .eraseBs [] (some 0x20)).txh ≠ none := by decide

theorem witness_TermPublishesLine :
    (lineAt .term [] none).faulted = false ∧ (lineAt .term [] none).lstate = .term ∧
      (lineAt .term [] none).lbase.toNat + (lineAt .term [] none).idx.toNat < 65536 := by decide

theorem witness_WaitingStepsChangeNothing :
    ((lineState 4 2 []).lstate = .fetch ∧ (lineState 4 2 []).idx.toNat + 1 < (lineState 4 2 []).lmax.toNat ∧
      (lineState 4 2 []).rxq = []) ∧
    (lineAt .eraseSp [] (some 0x08)).lstate = .eraseSp ∧ (lineAt .eraseSp [] (some 0x08)).txh ≠ none := by decide

theorem witness_ChannelAgentSteps :
    configuredState.rxen = true ∧ State.reset.rxen = false ∧
      ((lineAt .fetch [] (some 0x20)).txen = true ∧ (lineAt .fetch [] (some 0x20)).txh = some 0x20) ∧
      State.reset.txen = false ∧ configuredState.txh = none := by decide

/-- The state that a scripted move starts from. -/
def scripted (m : Move) (s : State) : State := { s with script := [m] }

theorem witness_OnlyEraseBytesAreSent : ∃ t, step (scripted .core (lineAt .eraseSp [] none)) = .next t := ⟨_, rfl⟩

theorem witness_ReceiveQueueIsFifo : ∃ t, step (scripted (.chanRx 0x41) configuredState) = .next t := ⟨_, rfl⟩

theorem witness_ChannelIgnoresDivisorAndMode :
    (∃ t, agentStep .core (lineAt .term [] none) = .next t) ∧
      (∃ t, agentStep .chanTx (lineAt .fetch [] (some 0x20)) = .next t) ∧
      ∃ t, agentStep (.chanRx 0x41) configuredState = .next t := ⟨⟨_, rfl⟩, ⟨_, rfl⟩, _, rfl⟩

/-- A state within the invariant, in the middle of a line, whose configuration is one this instance can latch. -/
def invState (l : LState) (h : Option Byte) : State :=
  { lineAt l [0x41] h with div := some 208, mode := some (modeByte Config.params 3 0 0) }

theorem invState_inv (l : LState) (hl : l ≠ .idle) (h : Option Byte) : Inv (invState l h) where
  spec := by cases l <;> first | exact absurd rfl hl | exact ⟨rfl, rfl, rfl, rfl⟩
  memory := rfl
  record := rfl
  written := rfl
  div := by
    intro d hd
    have e : d = 208#16 := by simpa [invState] using hd.symm
    have := (two_pow_divW_range Config.params).1
    subst e
    exact Nat.lt_of_lt_of_le (by decide) this
  mode := by
    intro m hm
    have e : m = modeByte Config.params 3 0 0 := by simpa [invState] using hm.symm
    subst e
    unfold modeByte selBit
    generalize Config.params.hasSelectBit = b
    cases b <;> decide

theorem witness_TransmitEventuallyDrains :
    Inv (invState .eraseBs (some 0x20)) ∧ (invState .eraseBs (some 0x20)).script = [] ∧
      (invState .eraseBs (some 0x20)).txen = true ∧ (invState .eraseBs (some 0x20)).txh = some 0x20 :=
  ⟨invState_inv _ (by decide) _, rfl, rfl, rfl⟩

/-- One word and state for each clause. -/
theorem witness_AcceptanceOrder :
    haltedState.faulted = true ∧
    (configuredState.faulted = false ∧ ¬ ∃ i, decodeCommand 0x0000000025802301#64 = .ok i) ∧
    ((∃ i, decodeCommand 0x0000000025800301#64 = .ok i) ∧ (lineState 4 2 []).faulted = false ∧
      (lineState 4 2 []).busy = true) ∧
    (configuredState.busy = false ∧ (∃ i, decodeCommand 0x0000000000000B01#64 = .ok i) ∧
      (0x0000000000000B01#64).extractLsb' 0 8 = 0x01#8 ∧ (0x0000000000000B01#64).extractLsb' 11 2 = 0b01#2) ∧
    ((0x0000000000000301#64).extractLsb' 11 2 ≠ 0b01#2 ∧ (0x0000000000000301#64).extractLsb' 16 32 = 0#32) ∧
    (0x0000000025800301#64).extractLsb' 16 32 ≠ 0#32 :=
  ⟨rfl, ⟨rfl, no_instruction (e := .reservedBits) (by decide)⟩, ⟨⟨_, rfl⟩, rfl, rfl⟩,
    ⟨rfl, ⟨_, rfl⟩, by decide, by decide⟩, by decide, by decide⟩

/-- The clauses on `RECV_LINE`; the last two buffers pass the top by one byte and end at it. -/
theorem witness_AcceptanceOrder_recvLine :
    ((∃ i, decodeCommand 0x00000002FFFF0002#64 = .ok i) ∧ (0x00000002FFFF0002#64).extractLsb' 0 8 = 0x02#8) ∧
    State.reset.configured = false ∧ configuredState.configured = true ∧
    (0x0000010000000002#64).extractLsb' 16 16 = 0#16 ∧
    ((0x00000002FFFF0002#64).extractLsb' 16 16 ≠ 0#16 ∧
      65536 < ((0x00000002FFFF0002#64).extractLsb' 32 16).toNat + ((0x00000002FFFF0002#64).extractLsb' 16 16).toNat) ∧
    ((0x00000001FFFF0002#64).extractLsb' 32 16).toNat + ((0x00000001FFFF0002#64).extractLsb' 16 16).toNat ≤ 65536 :=
  ⟨⟨⟨_, rfl⟩, by decide⟩, rfl, rfl, by decide, by decide, by decide⟩

theorem witness_FaultsArePrecise :
    ∃ t, (scripted (.host (.command 0#64)) configuredState).faulted = false ∧
      step (scripted (.host (.command 0#64)) configuredState) = .next t ∧ t.faulted = true := ⟨_, rfl, rfl, rfl⟩

theorem witness_FaultedCoreIsHalted :
    (scripted .core haltedState).faulted = true ∧ ∃ t, step (scripted .core haltedState) = .next t := ⟨rfl, _, rfl⟩

theorem witness_RegisterReadPort : 3 ≤ 63 ∧ 4 ≤ 63 ∧ 2 ≤ 63 ∧ 8 ≤ 8 := by decide

/-- The first and the last byte of a busy buffer; then the bytes on its two sides, and one of an idle buffer. -/
theorem witness_HostMemoryAccess :
    ((lineState 4 2 []).busy = true ∧ (lineState 4 2 []).lbase.toNat ≤ (0x0100#16).toNat ∧
      (0x0103#16).toNat < (lineState 4 2 []).lbase.toNat + (lineState 4 2 []).lmax.toNat) ∧
    (¬ (lineState 4 2 []).lbase.toNat ≤ (0x00FF#16).toNat ∧
      ¬ (0x0104#16).toNat < (lineState 4 2 []).lbase.toNat + (lineState 4 2 []).lmax.toNat) ∧
    configuredState.busy ≠ true ∧ 0x0104#16 ≠ 0x00FF#16 := by decide

theorem witness_StepRunsDeliveredCommand :
    decodeCommand 0x00000100000A0002#64 = .ok (.recvLine 10 0x0100) ∧
      (scripted (.host (.command 0x00000100000A0002#64)) configuredState).script =
        .host (.command 0x00000100000A0002#64) :: [] := by decide

theorem witness_StepRunsReadByte :
    (scripted .core (lineState 4 2 [0x41])).script = .core :: [] ∧
      (scripted .core (lineState 4 2 [0x41])).rxq = 0x41 :: [] ∧
      (scripted .core (lineState 4 2 [0x41])).faulted = false ∧
      (scripted .core (lineState 4 2 [0x41])).lstate = .fetch ∧
      (scripted .core (lineState 4 2 [0x41])).idx.toNat + 1 < (scripted .core (lineState 4 2 [0x41])).lmax.toNat := by
  decide

theorem witness_EveryStepKeepsInvariant :
    Inv (scripted .core (invState .term none)) ∧ ∃ t, step (scripted .core (invState .term none)) = .next t :=
  ⟨(invState_inv .term (by decide) none).own_fields [.core] 0 0 0, _, rfl⟩

theorem witness_EveryStepKeepsMemoryForm :
    Memory.wf (scripted .core (lineAt .term [] none)).dmem = true ∧
      ∃ t, step (scripted .core (lineAt .term [] none)) = .next t := ⟨rfl, _, rfl⟩

/-- Also of the clause on a refusal. -/
theorem witness_NoStopWithinInvariant :
    SpecInv (scripted (.host (.writeMem 0x0103 0x55)) (lineState 4 2 [])) ∧
      step (scripted (.host (.writeMem 0x0103 0x55)) (lineState 4 2 [])) = .refused (.bufferOwnedByCore 0x0103) :=
  ⟨by decide, rfl⟩

/-- A byte changed by the core, and one changed by the host. -/
theorem witness_MemoryChangesOnlyInsideBuffer :
    (SpecInv (scripted .core (lineAt .term [] none)) ∧ ∃ t, step (scripted .core (lineAt .term [] none)) = .next t ∧
      t.byteAt 0x0103 ≠ (scripted .core (lineAt .term [] none)).byteAt 0x0103) ∧
    SpecInv (scripted (.host (.writeMem 0x0104 0x55)) (lineState 4 2 [])) ∧
      ∃ t, step (scripted (.host (.writeMem 0x0104 0x55)) (lineState 4 2 [])) = .next t ∧
        t.byteAt 0x0104 ≠ (scripted (.host (.writeMem 0x0104 0x55)) (lineState 4 2 [])).byteAt 0x0104 :=
  ⟨⟨by decide, _, rfl, by decide⟩, by decide, _, rfl, by decide⟩

theorem witness_NoStepReadsMemory :
    (∃ t, agentStep .core (lineAt .term [] none) = .next t) ∧
      ∃ t, agentStep (.host (.writeMem 0x0104 0x55)) (lineState 4 2 []) = .next t := ⟨⟨_, rfl⟩, _, rfl⟩

theorem witness_OnlyConfigureWritesConfiguration :
    ∃ t, step (scripted (.host (.command 0x0000000025800301#64)) State.reset) = .next t := ⟨_, rfl⟩

theorem witness_StatusBitWriters :
    (∃ t, step (scripted (.host .reset) haltedState) = .next t ∧
      (nextMove (scripted (.host .reset) haltedState)).1 = .host .reset) ∧
    ∃ t, step (scripted .core (lineAt .term [] none)) = .next t ∧
      (nextMove (scripted .core (lineAt .term [] none))).1 ≠ .host .reset :=
  ⟨⟨_, rfl, rfl⟩, _, rfl, by decide⟩

theorem witness_CountWrittenOnlyByTerm : ∃ t, step (scripted .core (lineAt .term [] none)) = .next t := ⟨_, rfl⟩

/-- `A`, backspace, `B`, `CR`, `LF`, of which the line takes all. -/
theorem witness_LineReceptionRefinesProcedure :
    let s := lineState 10 0 [0x41, 0x08, 0x42, 0x0D, 0x0A]
    SpecInv s ∧ s.faulted = false ∧ s.lstate = .fetch ∧ s.txen = true ∧
      receiveLine s.lbase.toNat s.lmax.toNat s.idx.toNat s.dmem [] s.rxq =
        some ⟨[(0x0100, 0x42), (0x0101, 0x00)], 1, [0x20, 0x08], []⟩ := by decide

/-- The same with the last echo byte of the line before still in `TXH`, on a line that ends at once. -/
theorem witness_LineReceptionRefinesProcedure_txh :
    let s := { lineState 4 0 [0x0A] with txh := some 0x08 }
    SpecInv s ∧ s.faulted = false ∧ s.lstate = .fetch ∧ s.txen = true ∧ s.txh = some 0x08 ∧
      receiveLine s.lbase.toNat s.lmax.toNat s.idx.toNat s.dmem [] s.rxq = some ⟨[(0x0100, 0x00)], 0, [], []⟩ := by
  decide

theorem witness_LineReceptionBlocksForInput :
    let s := lineState 10 0 [0x41, 0x42]
    SpecInv s ∧ s.faulted = false ∧ s.lstate = .fetch ∧ s.txen = true ∧
      receiveLine s.lbase.toNat s.lmax.toNat s.idx.toNat s.dmem [] s.rxq = none := by decide

/-- Both erase steps, with the first echo byte still in `TXH` and with room for it. -/
theorem witness_EraseEchoCompletes :
    (Inv (invState .eraseSp none) ∧ (invState .eraseSp none).script = [] ∧
      (invState .eraseSp none).faulted = false ∧ (invState .eraseSp none).txen = true ∧
      (invState .eraseSp none).lstate = .eraseSp) ∧
    Inv (invState .eraseBs (some 0x20)) ∧ (invState .eraseBs (some 0x20)).script = [] ∧
      (invState .eraseBs (some 0x20)).faulted = false ∧ (invState .eraseBs (some 0x20)).txen = true ∧
      (invState .eraseBs (some 0x20)).lstate = .eraseBs :=
  ⟨⟨invState_inv _ (by decide) _, rfl, rfl, rfl, rfl⟩, invState_inv _ (by decide) _, rfl, rfl, rfl, rfl⟩

/-! ### Fairness -/

/-- `CORE`, passed over as often as it may be, makes the next unscripted move (R233, log 16). -/
theorem test_core_is_due :
    (nextMove { lineAt .eraseSp [] none with script := [], coreWait := 0 }).1 = .core := by decide

/-- `CHAN_TX` in its turn, before `CORE` can wait on it (R233, log 2). -/
theorem test_chanTx_is_due :
    (nextMove { lineAt .eraseBs [] (some 0x20) with script := [], txWait := 0, coreWait := 0 }).1 = .chanTx := by
  decide

end Sys2Proof.Tests
end

section
/-! PROOFS. The family 00_scope: `ceil_div` (R11) and the scripted move as the next step (R9). -/

namespace Sys2Proof.Machine

/-- A quotient is at least `ceil_div` exactly when it covers the dividend (R11, R105). -/
theorem ceilDiv_le_iff {a b q : Nat} (hb : 1 ≤ b) : ceilDiv a b ≤ q ↔ a ≤ q * b := by
  rw [ceilDiv, Nat.div_le_iff_le_mul hb]
  omega

theorem le_ceilDiv_mul {a b : Nat} (hb : 1 ≤ b) : a ≤ ceilDiv a b * b :=
  (ceilDiv_le_iff hb).1 (Nat.le_refl _)

/-- Settles O13: both halves are the characterisation of the quotients that cover the dividend. -/
theorem ceilDivIsLeast : Obligations.CeilDivIsLeast := by
  intro a b hb
  exact ⟨le_ceilDiv_mul hb, fun _ hq => (ceilDiv_le_iff hb).2 hq⟩

/-- A scripted move is the next one, and is taken off the script (R9, log 1). -/
theorem nextMove_scripted {s : State} {m : Move} {rest : List Move} (h : s.script = m :: rest) :
    nextMove s = (m, s.popMove rest) := by
  simp [nextMove, h]

/-- A step under a script is the step of its first move's agent, from the state with that move taken (R9, R60). -/
theorem step_scripted {s : State} {m : Move} {rest : List Move} (h : s.script = m :: rest) :
    step s = agentStep m (s.popMove rest) := by
  rw [step, takeStep, nextMove_scripted h]

/-- Settles O48: the step of the state whose script begins with the move. -/
theorem anyAgentMayStepNext : Obligations.AnyAgentMayStepNext := by
  intro s m rest
  exact step_scripted rfl

end Sys2Proof.Machine
end

section
/-! PROOFS. The family 10_state: a step by the group of registers it can write, and from these groups the writers of
each register (R25 to R30), the invariant (R39), and the read port (R33). -/

namespace Sys2Proof.Machine

variable {s t : State} {m : Move}

/-! ### The register groups -/

/-- Everything that `CONFIGURE` latches stands (R110). -/
structure SameConfig (s t : State) : Prop where
  div : t.div = s.div
  mode : t.mode = s.mode
  txen : t.txen = s.txen
  rxen : t.rxen = s.rxen
  u2x : t.u2x = s.u2x
  configured : t.configured = s.configured
  divOvf : t.divOvf = s.divOvf

/-- The fault record stands (R192). -/
structure SameRecord (s t : State) : Prop where
  faulted : t.faulted = s.faulted
  cause : t.faultCause = s.faultCause
  info : t.faultInfo = s.faultInfo

/-- The line's registers stand (R23, R30). -/
structure SameLine (s t : State) : Prop where
  busy : t.busy = s.busy
  lstate : t.lstate = s.lstate
  idx : t.idx = s.idx
  lbase : t.lbase = s.lbase
  lmax : t.lmax = s.lmax
  count : t.count = s.count

/-- A line in progress goes on in the same buffer; the index does not grow, or the byte just stored had room (R153,
R158). -/
structure LineGoesOn (s t : State) : Prop where
  before : s.lstate ≠ .idle
  after : t.lstate ≠ .idle
  busy : t.busy = s.busy
  lbase : t.lbase = s.lbase
  lmax : t.lmax = s.lmax
  count : t.count = s.count
  idx : t.idx.toNat ≤ s.idx.toNat ∨ t.idx.toNat + 1 ≤ s.lmax.toNat

/-- The `TERM` step publishes the index as the count and ends the line (R163). -/
structure LineCloses (s t : State) : Prop where
  before : s.lstate = .term
  after : t.lstate = .idle
  busy : t.busy = false
  count : t.count = some s.idx

theorem SameConfig.ctrlByte_eq (h : SameConfig s t) : ctrlByte t = ctrlByte s := by
  simp [ctrlByte, h.txen, h.rxen, h.u2x]

/-! ### What a `CORE` step writes of each group -/

theorem hasRoom_iff (s : State) : hasRoom s = true ↔ s.idx.toNat + 1 < s.lmax.toNat := by
  simp [hasRoom]

theorem CoreStepTo.sameConfig (k : CoreStepTo s (.next t)) : SameConfig s t := by
  cases k <;> constructor <;> rfl

theorem CoreStepTo.sameRecord (k : CoreStepTo s (.next t)) : SameRecord s t := by
  cases k <;> constructor <;> rfl

/-- A `CORE` step waits, goes on with a line in progress, or closes it. -/
theorem CoreStepTo.line_cases (k : CoreStepTo s (.next t)) : SameLine s t ∨ LineGoesOn s t ∨ LineCloses s t := by
  cases k with
  | wait => exact .inl ⟨rfl, rfl, rfl, rfl, rfl, rfl⟩
  | term _ hl => exact .inr (.inr ⟨hl, rfl, rfl, rfl⟩)
  | erase c q _ hl _ _ _ hi =>
    refine .inr (.inl ⟨by simp [hl], by simp, rfl, rfl, rfl, rfl, .inl ?_⟩)
    simp only [State.withLState_idx, State.withIdx_idx, idx_pred hi, BitVec.toNat_ofNat]
    omega
  | store c q _ hl hr =>
    refine .inr (.inl ⟨by simp [hl], by simp, rfl, rfl, rfl, rfl, .inr ?_⟩)
    rw [hasRoom_iff] at hr
    simp only [State.withLState_idx, State.withIdx_idx, idx_succ, BitVec.toNat_ofNat]
    omega
  | full _ hl | cr _ _ hl | lf _ _ hl | peek _ hl | eraseSp _ hl | eraseBs _ hl =>
    exact .inr (.inl ⟨by simp [hl], by simp, rfl, rfl, rfl, rfl, .inl (Nat.le_refl _)⟩)

/-- A `CORE` step leaves `DMEM`, or writes one byte of it. -/
theorem CoreStepTo.memory_cases (k : CoreStepTo s (.next t)) :
    t.dmem = s.dmem ∨ ∃ a v, a < dmemSize ∧ t.dmem = Memory.write s.dmem a v := by
  cases k with
  | store c _ _ _ _ _ _ _ _ ha => exact .inr ⟨_, c, ha, rfl⟩
  | term _ _ ha => exact .inr ⟨_, byteNUL, ha, rfl⟩
  | _ => exact .inl rfl

/-- A `CORE` step faults only on an address of the line past the top of `DMEM` (R50). -/
theorem CoreStepTo.fault_outside {e : Fault} (k : CoreStepTo s (.fault e)) :
    s.lstate ≠ .idle ∧ dmemSize ≤ bufAddr s := by
  cases k with
  | storeOutside _ hl _ ha | termOutside _ hl ha => exact ⟨by simp [hl], ha⟩

/-! ### What any agent's step writes of each group -/

/-- The configuration is written by an accepted `CONFIGURE` and by reset only (R25 to R28). -/
theorem AgentStepTo.config_cases (k : AgentStepTo s m (.next t)) :
    SameConfig s t ∨
      (∃ cw dsz stp par baud, m = .host (.command cw) ∧ decodeCommand cw = .ok (.configure dsz stp par baud) ∧
        par ≠ parReserved ∧ t = configureBody Config.params dsz stp par baud s) ∨
      (m = .host .reset ∧ t = applyReset s) := by
  cases k with
  | core _ k => exact .inl k.sameConfig
  | configured cw _ _ hp _ hd => exact .inr (.inl ⟨cw, _, _, _, _, rfl, hd, hp, rfl⟩)
  | reset => exact .inr (.inr ⟨rfl, rfl⟩)
  | _ => exact .inl ⟨rfl, rfl, rfl, rfl, rfl, rfl, rfl⟩

/-- The fault record is written by a faulting command word and by reset only (R28, R29). -/
theorem AgentStepTo.record_cases (k : AgentStepTo s m (.next t)) :
    SameRecord s t ∨ (∃ cw c, m = .host (.command cw) ∧ t = raiseFault c cw s) ∨
      (m = .host .reset ∧ t = applyReset s) := by
  cases k with
  | core _ k => exact .inl k.sameRecord
  | faulted cw c => exact .inr (.inl ⟨cw, c, rfl, rfl⟩)
  | reset => exact .inr (.inr ⟨rfl, rfl⟩)
  | _ => exact .inl ⟨rfl, rfl, rfl⟩

/-- The line's registers are written by a `CORE` step of a line in progress, by an accepted `RECV_LINE` and by reset
only (R23, R28, R30). -/
theorem AgentStepTo.line_cases (k : AgentStepTo s m (.next t)) :
    SameLine s t ∨ (m = .core ∧ (LineGoesOn s t ∨ LineCloses s t)) ∨
      (∃ cw maxlen base, m = .host (.command cw) ∧ decodeCommand cw = .ok (.recvLine maxlen base) ∧
        maxlen ≠ 0#16 ∧ bufferEnd base maxlen ≤ dmemSize ∧ t = s.openLine base maxlen) ∨
      (m = .host .reset ∧ t = applyReset s) := by
  cases k with
  | core _ k => exact k.line_cases.imp_right fun h => .inl ⟨rfl, h⟩
  | lineOpened cw _ _ _ hm he hd => exact .inr (.inr (.inl ⟨cw, _, _, rfl, hd, hm, he, rfl⟩))
  | reset => exact .inr (.inr (.inr ⟨rfl, rfl⟩))
  | _ => exact .inl ⟨rfl, rfl, rfl, rfl, rfl, rfl⟩

/-- A step leaves `DMEM`, or writes one byte of it. -/
theorem AgentStepTo.memory_cases (k : AgentStepTo s m (.next t)) :
    t.dmem = s.dmem ∨ ∃ a v, a < dmemSize ∧ t.dmem = Memory.write s.dmem a v := by
  cases k with
  | core _ k => exact k.memory_cases
  | writeMem a v => exact .inr ⟨_, v, a.isLt, rfl⟩
  | _ => exact .inl rfl

/-- The step of the whole machine is an agent's, from the state with only the model's own fields moved on. -/
theorem agentStepTo_of_step (h : step s = .next t) :
    ∃ script tick txWait coreWait, AgentStepTo
      { s with script := script, tick := tick, txWait := txWait, coreWait := coreWait } (nextMove s).1 (.next t) := by
  obtain ⟨script, tick, txWait, coreWait, e⟩ := nextMove_state s
  exact ⟨script, tick, txWait, coreWait, e ▸ h ▸ step_to s⟩

/-! ### The latched configuration -/

/-- What `CONFIGURE` latches in `DIV` fits its `DIV_W` bits (R103, R104, R106). -/
theorem divisorValue_lt (p : Params) (baud : Nat) : divisorValue p baud < 2 ^ p.divW := by
  have hw := two_pow_divW_range p
  by_cases h : divisor8 p.clkFreq baud ≤ 255
  · rw [divisorValue_double h]
    omega
  · rw [divisorValue_normal (by omega)]
    exact Nat.mod_lt _ (by omega)

/-- The parity code stands in bits 5:4 of the mode byte (R78). -/
theorem modeByte_par (p : Params) (dsz : BitVec 2) (stp : BitVec 1) (par : BitVec 2) :
    (modeByte p dsz stp par).extractLsb' 4 2 = par := by
  ext i hi
  interval_cases i <;> simp [modeByte]

/-- The bits of the mode byte that no operand reaches: bits 0 and 6 are 0, bit 7 is the select bit (R78, R80). -/
theorem modeByte_fixed_bits (p : Params) (dsz : BitVec 2) (stp : BitVec 1) (par : BitVec 2) :
    (modeByte p dsz stp par).getLsbD 0 = false ∧ (modeByte p dsz stp par).getLsbD 6 = false ∧
      (modeByte p dsz stp par).getLsbD 7 = p.hasSelectBit := by
  refine ⟨?_, ?_, ?_⟩ <;> simp [modeByte, selBit]

/-! ### Each part of the invariant is kept -/

theorem AgentStepTo.keeps_busyExact (k : AgentStepTo s m (.next t)) (h : busyExact s = true) :
    busyExact t = true := by
  rw [busyExact_iff] at h ⊢
  obtain same | ⟨-, goes | closes⟩ | ⟨_, _, _, -, -, -, -, rfl⟩ | ⟨-, rfl⟩ := k.line_cases
  · rwa [same.busy, same.lstate]
  · rw [goes.busy]
    exact iff_of_true (h.2 goes.before) goes.after
  · simp [closes.busy, closes.after]
  · simp [State.openLine]
  · simp

theorem AgentStepTo.keeps_configuredEnables (k : AgentStepTo s m (.next t)) (h : configuredEnables s = true) :
    configuredEnables t = true := by
  obtain same | ⟨_, _, _, _, _, -, -, -, rfl⟩ | ⟨-, rfl⟩ := k.config_cases
  · simpa only [configuredEnables, same.configured, same.txen, same.rxen] using h
  · rfl
  · rfl

theorem AgentStepTo.keeps_lineInBounds (k : AgentStepTo s m (.next t)) (h : lineInBounds s = true) :
    lineInBounds t = true := by
  rw [lineInBounds_iff] at h ⊢
  obtain same | ⟨-, goes | closes⟩ | ⟨_, maxlen, base, -, -, hm, he, rfl⟩ | ⟨-, rfl⟩ := k.line_cases
  · rwa [same.lstate, same.lmax, same.lbase, same.idx]
  · obtain ⟨hmax, hbuf, hidx⟩ := h goes.before
    rw [goes.lmax, goes.lbase]
    refine fun _ => ⟨hmax, hbuf, ?_⟩
    have := goes.idx
    omega
  · exact fun hl => absurd closes.after hl
  · have hpos : 1 ≤ maxlen.toNat := half_ne_zero_iff.1 hm
    exact fun _ => ⟨hpos, he, hpos⟩
  · exact fun hl => absurd rfl hl

/-- The count published is a write index of the buffer, so at most `LMAX − 1` (R163, R39 (3)). -/
theorem AgentStepTo.keeps_countInBounds (k : AgentStepTo s m (.next t)) (hline : lineInBounds s = true)
    (h : countInBounds s = true) : countInBounds t = true := by
  rw [countInBounds_iff] at h ⊢
  rw [lineInBounds_iff] at hline
  obtain same | ⟨-, goes | closes⟩ | ⟨_, _, _, -, -, -, -, rfl⟩ | ⟨-, rfl⟩ := k.line_cases
  · rwa [same.count]
  · rwa [goes.count]
  · intro n hn
    obtain rfl : s.idx = n := Option.some.inj (closes.count.symm.trans hn)
    obtain ⟨-, -, hidx⟩ := hline (by simp [closes.before])
    have := s.lmax.isLt
    omega
  · exact h
  · simp

theorem AgentStepTo.keeps_memory (k : AgentStepTo s m (.next t)) (h : Memory.wf s.dmem = true) :
    Memory.wf t.dmem = true := by
  obtain e | ⟨a, v, ha, e⟩ := k.memory_cases
  · rwa [e]
  · rw [e]
    exact Memory.wf_write _ v ha h

theorem AgentStepTo.keeps_record (k : AgentStepTo s m (.next t)) (h : faultRecordCoherent s = true) :
    faultRecordCoherent t = true := by
  obtain same | ⟨_, c, -, rfl⟩ | ⟨-, rfl⟩ := k.record_cases
  · simpa only [faultRecordCoherent, same.faulted, same.cause, same.info] using h
  · obtain ⟨hlo, hhi⟩ := c.code_range
    simp [faultRecordCoherent, hlo, hhi]
  · rfl

theorem AgentStepTo.keeps_written (k : AgentStepTo s m (.next t)) (h : configuredWritten s = true) :
    configuredWritten t = true := by
  obtain same | ⟨_, _, _, _, _, -, -, -, rfl⟩ | ⟨-, rfl⟩ := k.config_cases
  · simpa only [configuredWritten, same.configured, same.div, same.mode] using h
  · rfl
  · rfl

theorem AgentStepTo.keeps_divFits (k : AgentStepTo s m (.next t)) (h : divFits s) : divFits t := by
  obtain same | ⟨_, _, _, _, baud, -, -, -, rfl⟩ | ⟨-, rfl⟩ := k.config_cases
  · rwa [divFits, same.div]
  · rintro _ ⟨⟩
    rw [BitVec.toNat_ofNat]
    exact (Nat.mod_le _ _).trans_lt (divisorValue_lt _ _)
  · simp [divFits]

theorem AgentStepTo.keeps_modeLaidOut (k : AgentStepTo s m (.next t)) (h : modeLaidOut s) : modeLaidOut t := by
  obtain same | ⟨_, dsz, stp, par, _, -, -, hpar, rfl⟩ | ⟨-, rfl⟩ := k.config_cases
  · rwa [modeLaidOut, same.mode]
  · rintro _ ⟨⟩
    obtain ⟨h0, h6, h7⟩ := modeByte_fixed_bits Config.params dsz stp par
    exact ⟨h0, h6, by rwa [modeByte_par], h7⟩
  · simp [modeLaidOut]

/-- Every agent's step keeps the invariant, each part for its own reason (R39). -/
theorem AgentStepTo.keeps_inv (k : AgentStepTo s m (.next t)) (h : Inv s) : Inv t := by
  obtain ⟨⟨hbusy, hcfg, hline, hcount⟩, hmem, hrec, hwritten, hdiv, hmode⟩ := h
  exact
    { spec := ⟨k.keeps_busyExact hbusy, k.keeps_configuredEnables hcfg, k.keeps_lineInBounds hline,
        k.keeps_countInBounds hline hcount⟩
      memory := k.keeps_memory hmem
      record := k.keeps_record hrec
      written := k.keeps_written hwritten
      div := k.keeps_divFits hdiv
      mode := k.keeps_modeLaidOut hmode }

/-- Settles O50: the step is an agent's, and each agent's step keeps each part of the invariant. -/
theorem everyStepKeepsInvariant : Obligations.EveryStepKeepsInvariant := by
  intro s t hinv h
  obtain ⟨script, tick, txWait, coreWait, k⟩ := agentStepTo_of_step h
  exact k.keeps_inv (hinv.own_fields script tick txWait coreWait)

/-- Settles O49: nothing is configured, no line is open and no fault is recorded at reset. -/
theorem invariantAtReset : Obligations.InvariantAtReset where
  spec := ⟨rfl, rfl, rfl, rfl⟩
  memory := Memory.wf_reset
  record := rfl
  written := rfl
  div := nofun
  mode := nofun

/-! ### No stop within the invariant -/

/-- The write index of a line in progress is an address of `DMEM` (R39 (3)). -/
theorem bufAddr_lt_of_lineInBounds (h : lineInBounds s = true) (hl : s.lstate ≠ .idle) : bufAddr s < dmemSize := by
  obtain ⟨-, hbuf, hidx⟩ := (lineInBounds_iff s).1 h hl
  simp only [bufAddr, dmemSize]
  omega

/-- No agent's step faults while the line is within its buffer (R169). -/
theorem AgentStepTo.not_fault {e : Fault} (k : AgentStepTo s m (.fault e)) (h : lineInBounds s = true) : False := by
  cases k with
  | core _ k =>
    obtain ⟨hl, ha⟩ := k.fault_outside
    exact absurd (bufAddr_lt_of_lineInBounds h hl) (by omega)

/-- An agent's step is refused only where the host touches the busy buffer (R226, R231). -/
theorem AgentStepTo.refused_cases {r : Refusal} (k : AgentStepTo s m (.refused r)) :
    ∃ a : Half, r = .bufferOwnedByCore a ∧ ownedByCore s a = true ∧
      (m = .host (.readMem a) ∨ ∃ v, m = .host (.writeMem a v)) := by
  cases k with
  | core _ k => cases k
  | readOwned a ho => exact ⟨a, rfl, ho, .inl rfl⟩
  | writeOwned a v ho => exact ⟨a, rfl, ho, .inr ⟨v, rfl⟩⟩

/-- Settles O52: the state the chosen agent steps from has the same line and the same buffer. -/
theorem noStopWithinInvariant : Obligations.NoStopWithinInvariant := by
  rintro s ⟨-, -, hline, -⟩
  obtain ⟨_, _, _, _, e⟩ := nextMove_state s
  have k := step_to s
  rw [e] at k
  refine ⟨fun f hf => ?_, fun r hr => ?_⟩
  · rw [hf] at k
    exact k.not_fault hline
  · rw [hr] at k
    obtain ⟨a, rfl, ho, hmove⟩ := k.refused_cases
    obtain ⟨hbusy, hlo, hhi⟩ := (ownedByCore_iff _ a).1 ho
    exact ⟨a, rfl, hbusy, hlo, hhi, hmove⟩

/-! ### The writers of the registers -/

/-- Settles O55: by the three ways a step can treat the configuration. -/
theorem onlyConfigureWritesConfiguration : Obligations.OnlyConfigureWritesConfiguration := by
  intro s t h
  obtain ⟨_, _, _, _, k⟩ := agentStepTo_of_step h
  obtain same | ⟨cw, dsz, stp, par, baud, hm, hd, -, -⟩ | ⟨hm, -⟩ := k.config_cases
  · exact .inl ⟨same.div, same.mode, same.ctrlByte_eq⟩
  · exact .inr (.inl ⟨cw, dsz, stp, par, baud, hm, hd⟩)
  · exact .inr (.inr hm)

/-- Settles O57: by the ways a step can treat the line. -/
theorem countWrittenOnlyByTerm : Obligations.CountWrittenOnlyByTerm := by
  intro s t h
  obtain ⟨_, _, _, _, k⟩ := agentStepTo_of_step h
  obtain same | ⟨hm, goes | closes⟩ | ⟨_, _, _, -, -, -, -, rfl⟩ | ⟨hm, rfl⟩ := k.line_cases
  · exact .inl same.count
  · exact .inl goes.count
  · exact .inr (.inl ⟨hm, closes.before, closes.count, closes.busy, closes.after⟩)
  · exact .inl rfl
  · exact .inr (.inr ⟨hm, rfl⟩)

/-- A reset clears `STATUS` (R28, R220). -/
theorem AgentStepTo.reset_clears (k : AgentStepTo s (.host .reset) (.next t)) :
    t.configured = false ∧ t.busy = false ∧ t.divOvf = false ∧ t.faulted = false := by
  cases k
  exact ⟨rfl, rfl, rfl, rfl⟩

/-- Settles O56: `CONFIGURED` and `DIV_OVF` by the ways a step treats the configuration, `BUSY` by those it treats the
line, `FAULTED` by those it treats the fault record. -/
theorem statusBitWriters : Obligations.StatusBitWriters := by
  intro s t h
  obtain ⟨_, _, _, _, k⟩ := agentStepTo_of_step h
  refine ⟨fun hm => (hm ▸ k).reset_clears, fun hm => ⟨?configured, ?busy, ?divOvf, ?faulted⟩⟩
  case configured =>
    obtain same | ⟨cw, dsz, stp, par, baud, hc, hd, -, rfl⟩ | ⟨hr, -⟩ := k.config_cases
    · exact .inl same.configured
    · exact .inr ⟨rfl, cw, dsz, stp, par, baud, hc, hd⟩
    · exact absurd hr hm
  case busy =>
    obtain same | ⟨hc, goes | closes⟩ | ⟨cw, maxlen, base, hc, hd, -, -, rfl⟩ | ⟨hr, -⟩ := k.line_cases
    · exact .inl same.busy
    · exact .inl goes.busy
    · exact .inr (.inr ⟨closes.busy, hc, closes.before, closes.after⟩)
    · exact .inr (.inl ⟨rfl, rfl, cw, maxlen, base, hc, hd⟩)
    · exact absurd hr hm
  case divOvf =>
    obtain same | ⟨cw, dsz, stp, par, baud, hc, hd, -, -⟩ | ⟨hr, -⟩ := k.config_cases
    · exact .inl same.divOvf
    · exact .inr ⟨cw, dsz, stp, par, baud, hc, hd⟩
    · exact absurd hr hm
  case faulted =>
    obtain same | ⟨cw, _, hc, rfl⟩ | ⟨hr, -⟩ := k.record_cases
    · exact .inl same.faulted
    · exact .inr ⟨rfl, cw, hc⟩
    · exact absurd hr hm

/-! ### The read port -/

/-- A flag stands at its own bit and nowhere else. -/
theorem flagAt_getLsbD (b : Bool) {bit : Nat} (h : bit < 8) (i : Nat) :
    (flagAt b bit).getLsbD i = (decide (i = bit) && b) := by
  simp only [flagAt, BitVec.getLsbD_shiftLeft, BitVec.getLsbD_setWidth, BitVec.getLsbD_ofBool]
  grind

theorem ctrlByte_getLsbD (s : State) (i : Nat) :
    (ctrlByte s).getLsbD i = if i = 0 then s.txen else if i = 1 then s.rxen else if i = 2 then s.u2x else false := by
  simp only [ctrlByte, BitVec.getLsbD_or, flagAt_getLsbD, Nat.reduceLT]
  split_ifs <;> simp [*]

theorem statusByte_getLsbD (s : State) (i : Nat) :
    (statusByte s).getLsbD i =
      if i = 0 then s.configured else if i = 1 then s.busy else if i = 2 then s.divOvf else if i = 3 then s.faulted
      else false := by
  simp only [statusByte, BitVec.getLsbD_or, flagAt_getLsbD, Nat.reduceLT]
  split_ifs <;> simp [*]

theorem chstatByte_getLsbD (s : State) (i : Nat) :
    (chstatByte s).getLsbD i = if i = 0 then udre s else if i = 1 then rxc s else false := by
  simp only [chstatByte, BitVec.getLsbD_or, flagAt_getLsbD, Nat.reduceLT]
  split_ifs <;> simp [*]

theorem rxc_eq (s : State) : rxc s = decide (s.rxq ≠ []) := by
  unfold rxc
  cases s.rxq <;> rfl

/-- Zero-extension to the width of the read port adds no bit (log 8). -/
theorem getLsbD_setWidth_port (b : Byte) (i : Nat) : (b.setWidth 64).getLsbD i = b.getLsbD i := by
  rw [BitVec.getLsbD_setWidth, Bool.and_eq_right_iff_imp, decide_eq_true_iff]
  exact fun h => (BitVec.lt_of_getLsbD h).trans (by decide)

/-- A register number past the eight reads no value (R33). -/
theorem readReg_none (s : State) {n : Nat} (h : 8 ≤ n) : readReg s n = none := by
  obtain ⟨k, rfl⟩ := Nat.exists_eq_add_of_le' h
  rfl

/-- Settles O42: the wide registers read by definition, the three flag bytes bit by bit. -/
theorem registerReadPort : Obligations.RegisterReadPort := by
  intro s
  refine ⟨rfl, rfl, ⟨_, rfl, ?ctrl⟩, ⟨_, rfl, ?status⟩, rfl, rfl, rfl, ⟨_, rfl, ?chstat⟩,
    fun n hn => readReg_none s hn, fun _ => rfl⟩
  case ctrl =>
    simp only [getLsbD_setWidth_port, ctrlByte_getLsbD]
    grind
  case status =>
    simp only [getLsbD_setWidth_port, statusByte_getLsbD]
    grind
  case chstat =>
    simp only [getLsbD_setWidth_port, chstatByte_getLsbD, rxc_eq, udre]
    grind

/-- Settles O43: each element and each register of the one reset state. -/
theorem resetValues : Obligations.ResetValues := by
  unfold Obligations.ResetValues
  decide

end Sys2Proof.Machine
end

section
/-! PROOFS. The family 20_memory: the one store a step can make and that nothing else of a step depends on `DMEM`
(R54 to R57), and the receive queue (R65). -/

namespace Sys2Proof.Machine

variable {s t : State} {m : Move}

/-! ### `CoreStepTo` determines the next state -/

theorem onLineByte_ready (h : lineByteReady s = true) (action : State → Result) : onLineByte action s = action s := by
  simp [onLineByte, h]

/-- Taking a byte from the queue leaves LRX where a byte acts. -/
theorem lineByteReady_withRxq (hf : s.faulted = false) (hl : s.lstate = .fetch) (hr : hasRoom s = true)
    (q : List Byte) : lineByteReady (s.withRxq q) = true :=
  (lineByteReady_iff _).2 ⟨hf, hl, (hasRoom_iff s).1 hr⟩

/-- An erase byte at a positive index is erased, whichever of the two it is (R157). -/
theorem exec_decodeByte_erase {c : Byte} (hc : c = byteBS ∨ c = byteDEL) (hi : 0 < s.idx.toNat)
    (hready : lineByteReady s = true) : exec (decodeByte c s.idx) s = eraseByte s := by
  have hz : s.idx ≠ 0#16 := half_ne_zero_iff.2 hi
  have he : ∀ b, onLineByte (eraseOrStore b) s = eraseByte s := fun b => by
    rw [onLineByte_ready hready, eraseOrStore, if_neg hz]
  obtain rfl | rfl := hc
  · rw [show decodeByte byteBS s.idx = .rxbBs by simp [decodeByte, hz, byteBS, byteCR, byteLF]]
    exact he byteBS
  · rw [show decodeByte byteDEL s.idx = .rxbDel by simp [decodeByte, hz, byteDEL, byteBS, byteCR, byteLF]]
    exact he byteDEL

/-- Where `CORE` has no enabled step, its move changes nothing (R152, log 3). -/
theorem coreStep_not_enabled (h : coreEnabled s = false) : coreStep s = .next s := by
  cases hf : s.faulted
  case true => simp [coreStep, hf]
  cases hl : s.lstate with
  | idle => simp [coreStep, hf, hl]
  | fetch =>
    obtain ⟨hr, hq⟩ : hasRoom s = true ∧ s.rxq = [] := by simpa [coreEnabled, hf, hl, rxc] using h
    simp [coreStep, hf, hl, fetchStep, hr, rxPop, hq]
  | eraseSp | eraseBs =>
    have hu : udre s = false := by simpa [coreEnabled, hf, hl] using h
    simp [coreStep, hf, hl, eraseSpStep, eraseBsStep, sendStep, txPut, hu]
  | peek | term => simp [coreEnabled, hf, hl] at h

/-- Whatever next state `CoreStepTo` allows is the one the `CORE` step answers. -/
theorem CoreStepTo.coreStep_eq (k : CoreStepTo s (.next t)) : coreStep s = .next t := by
  cases k with
  | wait h => exact coreStep_not_enabled h
  | full hf hl hr => simp [coreStep, hf, hl, fetchStep, hr, bufferFullStep]
  | cr q hf hl hr hq =>
    rw [coreStep_reads hf hl hr hq]
    exact onLineByte_ready (lineByteReady_withRxq hf hl hr q) fun t => .next (t.withLState .peek)
  | lf q hf hl hr hq =>
    rw [coreStep_reads hf hl hr hq]
    exact onLineByte_ready (lineByteReady_withRxq hf hl hr q) fun t => .next (t.withLState .term)
  | erase c q hf hl hr hq hc hi =>
    rw [coreStep_reads hf hl hr hq]
    exact exec_decodeByte_erase (s := s.withRxq q) hc hi (lineByteReady_withRxq hf hl hr q)
  | store c q hf hl hr hq h1 h2 h3 ha =>
    rw [coreStep_reads hf hl hr hq, decodeByte_data h1 h2 h3]
    refine (onLineByte_ready (lineByteReady_withRxq hf hl hr q) _).trans ?_
    obtain ⟨-, e⟩ | ⟨ha', -⟩ := storeByte_cases c (s.withRxq q)
    · exact e
    · exact absurd ha (Nat.not_lt.2 ha')
  | peek hf hl => simp [coreStep, hf, hl, peekStep_eq]
  | eraseSp hf hl h | eraseBs hf hl h =>
    simp [coreStep, hf, hl, eraseSpStep, eraseBsStep, sendStep, txPut, udre, h]
  | term hf hl ha => simp [coreStep, hf, hl, termStep, memWrite_inside ha]

/-! ### The one store of a step -/

/-- Which byte a move may store, and where: LRX at its write index while a line is open (R54, R58), the host at the
address it names outside the busy buffer (R226). -/
inductive StoreOf (s : State) : Move → Nat → Byte → Prop
  | line (v : Byte) : s.lstate ≠ .idle → StoreOf s .core (bufAddr s) v
  | host (a : Half) (v : Byte) : ownedByCore s a = false → StoreOf s (.host (.writeMem a v)) a.toNat v

/-- A `CORE` step does the same whatever `DMEM` holds: it stores nothing, or one byte at the write index. -/
theorem CoreStepTo.under_any_memory (k : CoreStepTo s (.next t)) :
    (∀ d, CoreStepTo (s.withDmem d) (.next (t.withDmem d))) ∨
      s.lstate ≠ .idle ∧
        ∃ v, ∀ d, CoreStepTo (s.withDmem d) (.next (t.withDmem (Memory.write d (bufAddr s) v))) := by
  cases k with
  | wait h => exact .inl fun _ => .wait h
  | full hf hl hr => exact .inl fun _ => .full hf hl hr
  | cr q hf hl hr hq => exact .inl fun _ => .cr q hf hl hr hq
  | lf q hf hl hr hq => exact .inl fun _ => .lf q hf hl hr hq
  | erase c q hf hl hr hq hc hi => exact .inl fun _ => .erase c q hf hl hr hq hc hi
  | store c q hf hl hr hq h1 h2 h3 ha =>
    exact .inr ⟨by simp [hl], c, fun _ => .store c q hf hl hr hq h1 h2 h3 ha⟩
  | peek hf hl => exact .inl fun _ => .peek hf hl
  | eraseSp hf hl h => exact .inl fun _ => .eraseSp hf hl h
  | eraseBs hf hl h => exact .inl fun _ => .eraseBs hf hl h
  | term hf hl ha => exact .inr ⟨by simp [hl], byteNUL, fun _ => .term hf hl ha⟩

theorem acceptCommand_withDmem {cw : CmdWord} {checks : List (Bool × FaultCause)} {body : State → State}
    {d : Memory} (hbody : body (s.withDmem d) = (body s).withDmem d) :
    acceptCommand cw checks body (s.withDmem d) = (acceptCommand cw checks body s).withDmem d := by
  cases hf : s.faulted
  case true => simp [acceptCommand, hf]
  simp only [acceptCommand, State.withDmem_faulted, State.withDmem_busy, hf, Bool.false_eq_true, if_false]
  split
  · rfl
  · exact hbody

/-- A command word is accepted, refused or ignored whatever `DMEM` holds, and stores nothing. -/
theorem deliverCommand_withDmem (cw : CmdWord) (s : State) (d : Memory) :
    deliverCommand cw (s.withDmem d) = andThen (deliverCommand cw s) fun t => .next (t.withDmem d) := by
  obtain ⟨-, -, e⟩ | ⟨-, -, e⟩ | ⟨_, e, -, -⟩ := decodeCommand_cases cw <;> simp only [deliverCommand, e]
  · exact congrArg Host.Outcome.next (acceptCommand_withDmem rfl)
  · exact congrArg Host.Outcome.next (acceptCommand_withDmem rfl)
  · rw [State.withDmem_faulted]
    cases s.faulted <;> rfl

/-- `CHAN_TX` stores nothing, and looks at `TXEN` and `TXH` only (R135). -/
theorem chanTxStep_withDmem (s : State) (d : Memory) :
    chanTxStep (s.withDmem d) = andThen (chanTxStep s) fun t => .next (t.withDmem d) := by
  unfold chanTxStep
  rw [State.withDmem_txh, State.withDmem_txen]
  cases s.txh <;> cases s.txen <;> rfl

/-- An agent's step does the same whatever `DMEM` holds: it stores nothing, or one byte that the move may store. -/
theorem agentStep_under_any_memory (h : agentStep m s = .next t) :
    (∀ d, agentStep m (s.withDmem d) = .next (t.withDmem d)) ∨
      ∃ a v, StoreOf s m a v ∧ ∀ d, agentStep m (s.withDmem d) = .next (t.withDmem (Memory.write d a v)) := by
  have k := h ▸ agentStep_to m s
  cases k with
  | core _ k =>
    obtain same | ⟨hl, v, same⟩ := k.under_any_memory
    · exact .inl fun d => (same d).coreStep_eq
    · exact .inr ⟨_, v, .line v hl, fun d => (same d).coreStep_eq⟩
  | writeMem a v ho =>
    refine .inr ⟨_, v, .host a v ho, fun d => ?_⟩
    exact (if_neg (ne_true_of_eq_false ho)).trans (memWrite_inside a.isLt v (s.withDmem d))
  | ignored cw | faulted cw | configured cw | lineOpened cw =>
    exact .inl fun d => (deliverCommand_withDmem cw s d).trans (congrArg (andThen · _) h)
  | received b hr => exact .inl fun _ => if_pos hr
  | receiverOff b hr => exact .inl fun _ => if_neg (ne_true_of_eq_false hr)
  | sent | notReady => exact .inl fun d => (chanTxStep_withDmem s d).trans (congrArg (andThen · _) h)
  | readMem a ho => exact .inl fun _ => if_neg (ne_true_of_eq_false ho)
  | reset | readReg => exact .inl fun _ => rfl

/-- What a step does to any memory, it does to the state's own. -/
theorem dmem_eq_of_withDmem {d : Memory} (h : agentStep m s = .next t)
    (e : agentStep m (s.withDmem s.dmem) = .next (t.withDmem d)) : t.dmem = d :=
  congrArg State.dmem (Host.Outcome.next.inj (h.symm.trans e))

/-- What an agent's step does to `DMEM`: nothing, or the one store of the move. -/
theorem agentStep_dmem_cases (h : agentStep m s = .next t) :
    t.dmem = s.dmem ∨ ∃ a v, StoreOf s m a v ∧ t.dmem = Memory.write s.dmem a v := by
  obtain same | ⟨a, v, hstore, same⟩ := agentStep_under_any_memory h
  · exact .inl (dmem_eq_of_withDmem h (same s.dmem))
  · exact .inr ⟨a, v, hstore, dmem_eq_of_withDmem h (same s.dmem)⟩

/-- A byte that a step changes is the one that the move may store. -/
theorem storeOf_of_byteAt_ne {a : Nat} (h : agentStep m s = .next t) (ha : t.byteAt a ≠ s.byteAt a) :
    ∃ v, StoreOf s m a v := by
  obtain e | ⟨b, v, hstore, e⟩ := agentStep_dmem_cases h
  · exact absurd (congrArg (Memory.read · a) e) ha
  · obtain rfl : a = b := by
      by_contra hab
      exact ha ((congrArg (Memory.read · a) e).trans (Memory.read_write_other s.dmem v hab))
    exact ⟨v, hstore⟩

/-- Within R39, LRX stores inside its busy buffer and the host outside it (R55, R226). -/
theorem StoreOf.place {a : Nat} {v : Byte} (hs : StoreOf s m a v) (hinv : SpecInv s) :
    (m = .core ∧ s.busy = true ∧ s.lbase.toNat ≤ a ∧ a < s.lbase.toNat + s.lmax.toNat) ∨
      ∃ (h : Half) (v : Byte), m = .host (.writeMem h v) ∧ a = h.toNat ∧
        ¬ (s.busy = true ∧ s.lbase.toNat ≤ a ∧ a < s.lbase.toNat + s.lmax.toNat) := by
  obtain ⟨hbusy, -, hline, -⟩ := hinv
  cases hs with
  | line _ hl =>
    obtain ⟨-, -, hidx⟩ := (lineInBounds_iff s).1 hline hl
    refine .inl ⟨rfl, ((busyExact_iff s).1 hbusy).2 hl, ?_, ?_⟩ <;> simp only [bufAddr] <;> omega
  | host h v ho =>
    exact .inr ⟨h, v, rfl, rfl, fun hb => ne_true_of_eq_false ho ((ownedByCore_iff s h).2 hb)⟩

/-- Settles O54: the changed byte is the one store of the move, and R39 places that store. -/
theorem memoryChangesOnlyInsideBuffer : Obligations.MemoryChangesOnlyInsideBuffer := by
  intro s t a hinv h ha
  obtain ⟨_, _, _, _, e⟩ := nextMove_state s
  rw [step, takeStep, e] at h
  obtain ⟨v, hstore⟩ := storeOf_of_byteAt_ne h ha
  exact hstore.place hinv

/-- Settles O51: a step leaves `DMEM`, or writes one byte at an address of it. -/
theorem everyStepKeepsMemoryForm : Obligations.EveryStepKeepsMemoryForm := by
  intro s t hwf h
  obtain ⟨_, _, _, _, k⟩ := agentStepTo_of_step h
  exact k.keeps_memory hwf

/-- Settles O53: the step makes the same store, or none, under both contents of `DMEM`. -/
theorem noStepReadsMemory : Obligations.NoStepReadsMemory := by
  intro s t mv d h
  obtain same | ⟨b, v, hstore, same⟩ := agentStep_under_any_memory h
  · have e : t.dmem = s.dmem := dmem_eq_of_withDmem h (same s.dmem)
    exact ⟨d, same d, fun a => .inl ⟨rfl, congrArg (Memory.read · a) e⟩⟩
  · have e : t.dmem = Memory.write s.dmem b v := dmem_eq_of_withDmem h (same s.dmem)
    refine ⟨Memory.write d b v, same d, fun a => ?_⟩
    rw [State.byteAt, State.byteAt, e]
    by_cases hab : a = b
    · subst hab
      rw [Memory.read_write_same, Memory.read_write_same]
      cases hstore with
      | line => exact .inr ⟨rfl, .inl ⟨rfl, rfl⟩⟩
      | host x => exact .inr ⟨rfl, .inr ⟨x, v, rfl, rfl, rfl⟩⟩
    · exact .inl ⟨Memory.read_write_other d v hab, Memory.read_write_other s.dmem v hab⟩

/-! ### The receive queue -/

/-- A `CORE` step leaves the receive queue, or takes its oldest byte in `FETCH` or `PEEK` (R131, R168). -/
theorem CoreStepTo.rxq_cases (k : CoreStepTo s (.next t)) :
    t.rxq = s.rxq ∨ (s.lstate = .fetch ∨ s.lstate = .peek) ∧ t.rxq = s.rxq.tail := by
  cases k with
  | cr q _ hl _ hq | lf q _ hl _ hq | erase _ q _ hl _ hq | store _ q _ hl _ hq =>
    exact .inr ⟨.inl hl, by rw [hq]; rfl⟩
  | peek _ hl => exact .inr ⟨.inr hl, rfl⟩
  | _ => exact .inl rfl

/-- An agent's step leaves the receive queue, or does to it one of the three things of R65, R131 and R134. -/
theorem AgentStepTo.rxq_cases (k : AgentStepTo s m (.next t)) :
    t.rxq = s.rxq ∨ (∃ b, m = .chanRx b ∧ s.rxen = true ∧ t.rxq = s.rxq ++ [b]) ∨
      (m = .core ∧ (s.lstate = .fetch ∨ s.lstate = .peek) ∧ t.rxq = s.rxq.tail) ∨
      (m = .host .reset ∧ t.rxq = []) := by
  cases k with
  | core _ k => exact k.rxq_cases.imp_right fun h => .inr (.inl ⟨rfl, h⟩)
  | received b hr => exact .inr (.inl ⟨b, rfl, hr, rfl⟩)
  | reset => exact .inr (.inr (.inr ⟨rfl, rfl⟩))
  | _ => exact .inl rfl

/-- Settles O36: the step is an agent's, from a state with the same queue. -/
theorem receiveQueueIsFifo : Obligations.ReceiveQueueIsFifo := by
  intro s t h
  obtain ⟨_, _, _, _, k⟩ := agentStepTo_of_step h
  exact k.rxq_cases

end Sys2Proof.Machine
end

section
/-! PROOFS. The family 30_encoding: the round trips of decoder and encoder, the illegal words, the received-byte classes
(R70 to R76, R82), the frame format and the mode byte (R74 to R81), the assembler (R85), and the command word that
`CONFIGURE` or a step runs (R77, R101, R193). -/

namespace Sys2Proof.Machine

/-! ### Command words -/

section Words

variable (dsz : BitVec 2) (stp : BitVec 1) (par : BitVec 2) (baud : BitVec 32) (maxlen base : Half)

theorem decodeCommand_encodeConfigure :
    decodeCommand (encodeConfigure dsz stp par baud) = .ok (.configure dsz stp par baud) := by
  simp [decodeCommand]

theorem decodeCommand_encodeRecvLine :
    decodeCommand (encodeRecvLine maxlen base) = .ok (.recvLine maxlen base) := by
  simp [decodeCommand]

end Words

/-- The command port decodes the word whose bytes it is given (R70). -/
theorem decode_bytesOfWord (cw : CmdWord) : decode .commandPort (bytesOfWord cw) = decodeCommand cw := by
  have length_eight : (bytesOfWord cw).length = 8 := rfl
  simp [decode, length_eight]

/-- A word is legal exactly when it has an opcode and its format's reserved bits are 0 (R76). -/
theorem decodeCommand_ok_iff (cw : CmdWord) :
    (∃ i, decodeCommand cw = .ok i) ↔
      (cmdOp cw = 0x01#8 ∧ formatCReservedZero cw = true) ∨ (cmdOp cw = 0x02#8 ∧ formatLReservedZero cw = true) := by
  obtain ⟨hop, hres, e⟩ | ⟨hop, hres, e⟩ | ⟨_, e, hc, hl⟩ := decodeCommand_cases cw
  · exact iff_of_true ⟨_, e⟩ (.inl ⟨hop, hres⟩)
  · exact iff_of_true ⟨_, e⟩ (.inr ⟨hop, hres⟩)
  · exact iff_of_false (by simp [e]) (not_or.2 ⟨hc, hl⟩)

theorem formatCReservedZero_iff (cw : CmdWord) :
    formatCReservedZero cw = true ↔ cw.extractLsb' 13 3 = 0#3 ∧ cw.extractLsb' 48 16 = 0#16 := by
  simp [formatCReservedZero]

theorem formatLReservedZero_iff (cw : CmdWord) :
    formatLReservedZero cw = true ↔ cw.extractLsb' 8 8 = 0#8 ∧ cw.extractLsb' 48 16 = 0#16 := by
  simp [formatLReservedZero]

/-- Where a row's mask is all ones, a word that matches the row has the bits of the match (R76, R86). -/
theorem extractLsb'_of_row_matches {r : OpcodeRow} {cw : CmdWord} (h : r.matches cw = true) {start len : Nat}
    (hmask : r.maskBits.extractLsb' start len = BitVec.allOnes len) :
    cw.extractLsb' start len = r.matchBits.extractLsb' start len := by
  rw [← eq_of_beq h, BitVec.extractLsb'_and, hmask, BitVec.and_allOnes]

/-- A word matches the row of format C exactly when its opcode and reserved bits are those of `CONFIGURE`. -/
theorem rowConfigure_matches_iff (cw : CmdWord) :
    rowConfigure.matches cw = true ↔ cmdOp cw = 0x01#8 ∧ formatCReservedZero cw = true := by
  constructor
  · intro h
    rw [formatCReservedZero_iff]
    exact ⟨extractLsb'_of_row_matches h (by decide), extractLsb'_of_row_matches h (by decide),
      extractLsb'_of_row_matches h (by decide)⟩
  · rintro ⟨hop, hres⟩
    obtain ⟨-, row_matches⟩ := Laws.TableRow.configure (cmdDsz cw) (cmdStp cw) (cmdPar cw) (cmdBaud cw) rfl
    rwa [encode, wordOfBytes_bytesOfWord, encodeConfigure_fields hop hres] at row_matches

/-- A word matches the row of format L exactly when its opcode and reserved bits are those of `RECV_LINE`. -/
theorem rowRecvLine_matches_iff (cw : CmdWord) :
    rowRecvLine.matches cw = true ↔ cmdOp cw = 0x02#8 ∧ formatLReservedZero cw = true := by
  constructor
  · intro h
    rw [formatLReservedZero_iff]
    exact ⟨extractLsb'_of_row_matches h (by decide), extractLsb'_of_row_matches h (by decide),
      extractLsb'_of_row_matches h (by decide)⟩
  · rintro ⟨hop, hres⟩
    obtain ⟨-, row_matches⟩ := Laws.TableRow.recvLine (cmdMaxlen cw) (cmdBase cw) rfl
    rwa [encode, wordOfBytes_bytesOfWord, encodeRecvLine_fields hop hres] at row_matches

/-! ### Received bytes -/

/-- Row 1 of R82. -/
theorem decodeByte_cr (idx : Half) : decodeByte byteCR idx = .rxbCr := rfl

/-- Row 2 of R82. -/
theorem decodeByte_lf (idx : Half) : decodeByte byteLF idx = .rxbLf := rfl

/-- Row 3 of R82. -/
theorem decodeByte_bs {idx : Half} (h : 0 < idx.toNat) : decodeByte byteBS idx = .rxbBs := by
  have row_applies : byteBS = byteBS ∧ idx ≠ 0#16 := ⟨rfl, half_ne_zero_iff.2 h⟩
  rw [decodeByte, if_neg (by decide), if_neg (by decide), if_pos row_applies]

/-- Row 4 of R82. -/
theorem decodeByte_del {idx : Half} (h : 0 < idx.toNat) : decodeByte byteDEL idx = .rxbDel := by
  have row_applies : byteDEL = byteDEL ∧ idx ≠ 0#16 := ⟨rfl, half_ne_zero_iff.2 h⟩
  have not_bs : ¬ (byteDEL = byteBS ∧ idx ≠ 0#16) := fun e => absurd e.1 (by decide)
  rw [decodeByte, if_neg (by decide), if_neg (by decide), if_neg not_bs, if_pos row_applies]

/-! ### The round trips -/

/-- Settles O2: a command through the fields of its word, a byte through its row of R82. -/
theorem decodeOfEncodeIsTheInstruction : Obligations.DecodeOfEncodeIsTheInstruction := by
  intro i idx wf
  cases i with
  | configure dsz stp par baud => exact (decode_bytesOfWord _).trans (decodeCommand_encodeConfigure dsz stp par baud)
  | recvLine maxlen base => exact (decode_bytesOfWord _).trans (decodeCommand_encodeRecvLine maxlen base)
  | rxbCr => exact congrArg Except.ok (decodeByte_cr idx)
  | rxbLf => exact congrArg Except.ok (decodeByte_lf idx)
  | rxbBs => exact congrArg Except.ok (decodeByte_bs (half_ne_zero_iff.1 (bne_iff_ne.1 wf)))
  | rxbDel => exact congrArg Except.ok (decodeByte_del (half_ne_zero_iff.1 (bne_iff_ne.1 wf)))
  | rxbData c =>
    simp only [Instr.wellFormedAt, Bool.and_eq_true, Bool.or_eq_true, bne_iff_ne, beq_iff_eq] at wf
    obtain ⟨⟨not_cr, not_lf⟩, not_erase⟩ := wf
    have not_erase' : ¬ ((c = byteBS ∨ c = byteDEL) ∧ 0 < idx.toNat) := by
      rw [← half_ne_zero_iff]
      tauto
    exact congrArg Except.ok (decodeByte_data not_cr not_lf not_erase')

/-- Settles O3: a legal word is the word of its fields. -/
theorem encodeOfDecodedWordIsTheWord : Obligations.EncodeOfDecodedWordIsTheWord := by
  intro cw i h
  obtain ⟨hop, hres, e⟩ | ⟨hop, hres, e⟩ | ⟨_, e, -, -⟩ := decodeCommand_cases cw <;> rw [e] at h <;> cases h
  · rw [encode, wordOfBytes_bytesOfWord, encodeConfigure_fields hop hres]
  · rw [encode, wordOfBytes_bytesOfWord, encodeRecvLine_fields hop hres]

/-! ### Illegal words -/

/-- An illegal word delivered to a core that is not halted is recorded as `ILLEGAL_CMD` (R76, R193). -/
theorem hostStep_illegal {cw : CmdWord} {s : State} (h : ¬ ∃ i, decodeCommand cw = .ok i) (hf : s.faulted = false) :
    hostStep (.command cw) s = .next (raiseFault .illegalCmd cw s) := by
  cases e : decodeCommand cw with
  | ok i => exact absurd ⟨i, e⟩ h
  | error _ => simp [hostStep, deliverCommand, e, hf]

/-- Settles O4: legality by opcode and reserved bits, the rows of the opcode table testing just these, and the fault. -/
theorem illegalWordsFaultIllegalCmd : Obligations.IllegalWordsFaultIllegalCmd := by
  refine ⟨fun cw => ?bits, fun cw => ?rows, fun _ _ h hf => hostStep_illegal h hf⟩
  case bits =>
    rw [decodeCommand_ok_iff, formatCReservedZero_iff, formatLReservedZero_iff, cmdOp]
    have one_opcode : ¬ (cw.extractLsb' 0 8 = 0x01#8 ∧ cw.extractLsb' 0 8 = 0x02#8) := by
      rintro ⟨h1, h2⟩
      exact absurd (h1.symm.trans h2) (by decide)
    tauto
  case rows => rw [decodeCommand_ok_iff, rowConfigure_matches_iff, rowRecvLine_matches_iff]

/-! ### The frame format -/

section Format

variable (dsz : BitVec 2) (stp : BitVec 1) (par : BitVec 2)

/-- `DSZ` stands in bits 1:0 of `FMT` (R74). -/
theorem fmtOf_dsz : (fmtOf dsz stp par).extractLsb' 0 2 = dsz := by
  ext i hi
  interval_cases i <;> simp [fmtOf]

/-- `STP` stands in bit 2 of `FMT` (R74). -/
theorem fmtOf_stp : (fmtOf dsz stp par).extractLsb' 2 1 = stp := by
  ext i hi
  interval_cases i
  simp [fmtOf]

/-- `PAR` stands in bits 4:3 of `FMT` (R74). -/
theorem fmtOf_par : (fmtOf dsz stp par).extractLsb' 3 2 = par := by
  ext i hi
  interval_cases i <;> simp [fmtOf]

/-- Bits 7:5 of `FMT` are 0 (R74). -/
theorem fmtOf_reserved : (fmtOf dsz stp par).extractLsb' 5 3 = 0#3 := by
  ext i hi
  interval_cases i <;> simp [fmtOf]

/-- A byte with bits 7:5 zero is the `FMT` of its fields (R74). -/
theorem fmtOf_fields {v : Byte} (hres : v.extractLsb' 5 3 = 0#3) :
    fmtOf (v.extractLsb' 0 2) (v.extractLsb' 2 1) (v.extractLsb' 3 2) = v := by
  have reserved (k : Nat) (hk : k < 3) : v.getLsbD (5 + k) = false := by
    simpa [hk] using congrArg (BitVec.getLsbD · k) hres
  ext i hi
  interval_cases i <;>
    simp [fmtOf, ← BitVec.getLsbD_eq_getElem, reserved 0, reserved 1, reserved 2]

/-- `DSZ` stands in bits 2:1 of the mode byte (R78). -/
theorem modeByte_dsz (p : Params) : (modeByte p dsz stp par).extractLsb' 1 2 = dsz := by
  ext i hi
  interval_cases i <;> simp [modeByte]

/-- `STP` stands in bit 3 of the mode byte (R78). -/
theorem modeByte_stp (p : Params) : (modeByte p dsz stp par).extractLsb' 3 1 = stp := by
  ext i hi
  interval_cases i
  simp [modeByte]

end Format

theorem Parity.code_injective : ∀ {a b : Parity}, a.code = b.code → a = b
  | .none, .none, _ => rfl
  | .even, .even, _ => rfl
  | .odd, .odd, _ => rfl

/-- Every code but the reserved one is a parity mode's (R74, R77). -/
theorem Parity.exists_code_eq_iff (par : BitVec 2) : (∃ a : Parity, a.code = par) ↔ par ≠ parReserved := by
  constructor
  · rintro ⟨a, rfl⟩
    cases a <;> decide
  · intro h
    have codes : ∀ q : BitVec 2, q ≠ parReserved →
        Parity.none.code = q ∨ Parity.even.code = q ∨ Parity.odd.code = q := by decide
    obtain e | e | e := codes par h <;> exact ⟨_, e⟩

theorem FrameFormat.dsz_toNat (f : FrameFormat) : f.dsz.toNat = f.dataLess5.val := by
  rw [dsz, BitVec.toNat_ofNat, Nat.mod_eq_of_lt f.dataLess5.isLt]

/-- A frame format is determined by its three field values (R74). -/
theorem FrameFormat.eq_of_fields {f g : FrameFormat} (hd : f.dsz = g.dsz) (hs : f.stp = g.stp)
    (hp : f.parity.code = g.parity.code) : f = g := by
  have data : f.dataLess5 = g.dataLess5 := Fin.ext (by rw [← dsz_toNat, hd, dsz_toNat])
  have stop : f.twoStop = g.twoStop := by simpa [stp] using congrArg (BitVec.getLsbD · 0) hs
  have parity : f.parity = g.parity := Parity.code_injective hp
  cases f
  cases g
  cases data
  cases stop
  cases parity
  rfl

/-- Every choice of field values with a legal parity code is a frame format's (R75). -/
theorem FrameFormat.exists_fields (d : BitVec 2) (q : BitVec 1) {r : BitVec 2} (hr : r ≠ parReserved) :
    ∃ f : FrameFormat, f.dsz = d ∧ f.stp = q ∧ f.parity.code = r := by
  obtain ⟨a, ha⟩ := (Parity.exists_code_eq_iff r).2 hr
  refine ⟨⟨d.toFin, q.getLsbD 0, a⟩, BitVec.eq_of_toNat_eq (dsz_toNat _), ?_, ha⟩
  ext i hi
  interval_cases i
  simp [stp]

/-- The `FMT` of a frame format determines each of its fields (R75). -/
theorem FrameFormat.fmt_injective {f g : FrameFormat} (h : f.fmt = g.fmt) : f = g := by
  unfold fmt at h
  refine eq_of_fields ?_ ?_ ?_
  · rw [← fmtOf_dsz f.dsz f.stp f.parity.code, h, fmtOf_dsz]
  · rw [← fmtOf_stp f.dsz f.stp f.parity.code, h, fmtOf_stp]
  · rw [← fmtOf_par f.dsz f.stp f.parity.code, h, fmtOf_par]

theorem fmtLegal_iff (v : Byte) :
    fmtLegal v = true ↔ v.extractLsb' 5 3 = 0#3 ∧ v.extractLsb' 3 2 ≠ parReserved := by
  simp [fmtLegal]

/-- The legal `FMT` values are those of the frame formats (R75). -/
theorem fmtLegal_iff_exists_fmt (v : Byte) : fmtLegal v = true ↔ ∃ f : FrameFormat, f.fmt = v := by
  rw [fmtLegal_iff]
  constructor
  · rintro ⟨hres, hpar⟩
    obtain ⟨f, hd, hs, hp⟩ := FrameFormat.exists_fields (v.extractLsb' 0 2) (v.extractLsb' 2 1) hpar
    exact ⟨f, by rw [FrameFormat.fmt, hd, hs, hp, fmtOf_fields hres]⟩
  · rintro ⟨f, rfl⟩
    refine ⟨fmtOf_reserved _ _ _, ?_⟩
    rw [FrameFormat.fmt, fmtOf_par]
    exact (Parity.exists_code_eq_iff _).1 ⟨_, rfl⟩

/-- Settles O6: a format is read back from its byte, a legal byte is built from its fields, and the count by
evaluation. -/
theorem frameFormatEncodings : Obligations.FrameFormatEncodings :=
  ⟨fun _ _ => FrameFormat.fmt_injective, fmtLegal_iff_exists_fmt, by decide⟩

/-! ### The mode byte -/

/-- Settles O8: the fields of the mode byte that the accepted command latches. -/
theorem modeByteLayout : Obligations.ModeByteLayout := by
  intro p dsz stp par baud s hf hb hp hz
  obtain ⟨bit0, bit6, bit7⟩ := modeByte_fixed_bits p dsz stp par
  refine ⟨modeByte p dsz stp par, ?_, bit0, modeByte_dsz .., modeByte_stp .., modeByte_par .., bit6, bit7⟩
  rw [configureWith_accepted hf hb hp hz, configureBody, State.latch_mode]

/-- The mode byte determines its fields (R81). -/
theorem modeByte_injective {p : Params} {d d' : BitVec 2} {q q' : BitVec 1} {r r' : BitVec 2}
    (h : modeByte p d q r = modeByte p d' q' r') : d = d' ∧ q = q' ∧ r = r' := by
  refine ⟨?_, ?_, ?_⟩
  · rw [← modeByte_dsz d q r p, h, modeByte_dsz]
  · rw [← modeByte_stp d q r p, h, modeByte_stp]
  · rw [← modeByte_par p d q r, h, modeByte_par]

/-- The mode byte depends on the build only by its select bit (R80). -/
theorem modeByte_select (p : Params) (d : BitVec 2) (q : BitVec 1) (r : BitVec 2) :
    modeByte p d q r = modeByte ⟨0, 0, p.hasSelectBit⟩ d q r := rfl

/-- R81's table, without and with the select bit. -/
theorem modeByte_table : ∀ sel : Bool, ∀ e ∈ modeTable,
    modeByte ⟨0, 0, sel⟩ e.1 e.2.1 e.2.2.1 = e.2.2.2 + (if sel then 0x80#8 else 0x00#8) :=
  fun sel => List.map_inj_left.1 (by cases sel <;> decide)

/-- Settles O10: the fields read back, the bits that no operand reaches, and the rows of the table. -/
theorem modeByteValues : Obligations.ModeByteValues := by
  refine ⟨fun _ _ _ _ _ _ _ => modeByte_injective, fun p d q r => ?_, fun p e he => ?_⟩
  · obtain ⟨bit0, bit6, -⟩ := modeByte_fixed_bits p d q r
    exact ⟨bit0, bit6, fun hr => (modeByte_par p d q r).symm ▸ hr⟩
  · rw [modeByte_select, modeByte_table _ _ he]

/-! ### Words, bytes and lines written out -/

/-- Settles O1: the decoder on eleven fixed inputs. -/
theorem specWordsDecode : Obligations.SpecWordsDecode := by
  unfold Obligations.SpecWordsDecode
  decide

/-- Settles O5: the rows of R82 in their order. -/
theorem receivedByteClasses : Obligations.ReceivedByteClasses := by
  intro c idx
  split_ifs with cr lf bs del
  · exact cr ▸ decodeByte_cr idx
  · exact lf ▸ decodeByte_lf idx
  · exact bs.1 ▸ decodeByte_bs bs.2
  · exact del.1 ▸ decodeByte_del del.2
  · refine decodeByte_data cr lf ?_
    rintro ⟨e | e, h⟩
    · exact bs ⟨e, h⟩
    · exact del ⟨e, h⟩

/-- Settles O7: the assembler on R85's lines. -/
theorem assemblerWords : Obligations.AssemblerWords := by
  unfold Obligations.AssemblerWords
  decide

/-! ### Commands executed -/

/-- An idle core that is not halted records the first check of a command that fails (R193). -/
theorem acceptCommand_fault {cw : CmdWord} {checks : List (Bool × FaultCause)} {body : State → State} {s : State}
    {c : FaultCause} (hf : s.faulted = false) (hb : s.busy = false) (h : firstFault checks = some c) :
    acceptCommand cw checks body s = raiseFault c cw s := by
  simp [acceptCommand, hf, hb, h]

section OperandFaults

variable {p : Params} {dsz : BitVec 2} {stp : BitVec 1} {par : BitVec 2} {baud : BitVec 32} {s : State}

/-- The reserved parity code is found first (R77, R100). -/
theorem configureWith_illegalFmt (hf : s.faulted = false) (hb : s.busy = false) (hp : par = parReserved) :
    configureWith p dsz stp par baud s = raiseFault .illegalFmt (encodeConfigure dsz stp par baud) s :=
  acceptCommand_fault hf hb (by simp [hp])

/-- With a legal parity code a baud rate of 0 is found (R101). -/
theorem configureWith_baudZero (hf : s.faulted = false) (hb : s.busy = false) (hp : par ≠ parReserved)
    (hz : baud = 0#32) :
    configureWith p dsz stp par baud s = raiseFault .baudZero (encodeConfigure dsz stp par baud) s :=
  acceptCommand_fault hf hb (by simp [hp, hz])

end OperandFaults

/-- Settles O12: the two checks of `CONFIGURE`, in their order. -/
theorem configureOperandFaults : Obligations.ConfigureOperandFaults := by
  intro dsz stp par baud s hf hb
  exact ⟨fun hp => congrArg Host.Outcome.next (configureWith_illegalFmt hf hb hp),
    fun hp hz => congrArg Host.Outcome.next (configureWith_baudZero hf hb hp hz)⟩

/-- Settles O46: the scripted move is the delivered command, and the command is the decoded one. -/
theorem stepRunsDeliveredCommand : Obligations.StepRunsDeliveredCommand := by
  intro cw i rest s decoded scripted
  rw [step_scripted scripted, agentStep, hostStep, deliverCommand, decoded]
  rfl

end Sys2Proof.Machine
end

section
/-! PROOFS. The family 40_configure: the state an accepted `CONFIGURE` leaves (R100, R110 to R112), the bounds of the
divisors it latches (R102 to R106, R115), the independence of the mode byte's fields (R108), and what the two commands
leave unchanged (R112, R150, R192). -/

namespace Sys2Proof.Machine

/-! ### The bounds of the divisors -/

section Divisors

variable {clk baud : Nat} (hb : 1 ≤ baud)
include hb

/-- A double-speed divisor is at most `q` exactly when `q + 1` periods of `8 × BAUD` cover the clock (R102, R105). -/
theorem divisor8_le_iff (q : Nat) : divisor8 clk baud ≤ q ↔ clk ≤ (q + 1) * (8 * baud) := by
  rw [divisor8, Nat.sub_le_iff_le_add, ceilDiv_le_iff (by omega)]

/-- The same of a normal-speed divisor and `16 × BAUD` (R104, R105). -/
theorem divisor16_le_iff (q : Nat) : divisor16 clk baud ≤ q ↔ clk ≤ (q + 1) * (16 * baud) := by
  rw [divisor16, Nat.sub_le_iff_le_add, ceilDiv_le_iff (by omega)]

/-- Double speed reaches down to `CLK_FREQ = 2048 × BAUD` (R115). -/
theorem doubleSpeed_iff_clk_le : doubleSpeed clk baud = true ↔ clk ≤ 2048 * baud := by
  rw [doubleSpeed_iff, divisor8_le_iff hb]
  omega

/-- The double-speed divisor is 0 where one period of `8 × BAUD` covers the clock (R115). -/
theorem divisor8_eq_zero_iff : divisor8 clk baud = 0 ↔ clk ≤ 8 * baud := by
  rw [← Nat.le_zero, divisor8_le_iff hb]
  omega

/-- A normal-speed divisor reaches a positive `q` exactly when `q` periods of `16 × BAUD` do not cover the clock. -/
theorem le_divisor16_iff {q : Nat} (hq : 1 ≤ q) : q ≤ divisor16 clk baud ↔ q * (16 * baud) < clk := by
  obtain ⟨r, rfl⟩ := Nat.exists_eq_add_of_le' hq
  rw [Nat.succ_le_iff, ← not_le, divisor16_le_iff hb, not_le]

end Divisors

/-- The divisor overflows exactly when `2^DIV_W` periods of `16 × BAUD` do not cover the clock; this is out of double
speed's reach since `DIV_W ≥ 8` (R104, R115). -/
theorem divisorOverflows_iff_lt_clk {p : Params} {baud : Nat} (hb : 1 ≤ baud) :
    divisorOverflows p baud = true ↔ 2 ^ p.divW * (16 * baud) < p.clkFreq := by
  have hw := two_pow_divW_range p
  have not_double : 2 ^ p.divW * (16 * baud) < p.clkFreq → 255 < divisor8 p.clkFreq baud := by
    intro h
    have := Nat.mul_le_mul_right (16 * baud) hw.1
    rw [← not_le, divisor8_le_iff hb]
    omega
  rw [divisorOverflows_iff, le_divisor16_iff hb (by omega)]
  exact and_iff_right_of_imp not_double

/-- With no overflow the divisor latched covers the clock, at 8 times the rate in double speed and else at 16 times
(R102, R104, R105). -/
theorem clkFreq_le_of_not_divisorOverflows {p : Params} {baud : Nat} (hb : 1 ≤ baud)
    (h : divisorOverflows p baud = false) :
    p.clkFreq ≤ (divisorValue p baud + 1) * ((if doubleSpeed p.clkFreq baud then 8 else 16) * baud) := by
  by_cases hd : divisor8 p.clkFreq baud ≤ 255
  · rw [divisorValue_double hd, if_pos ((doubleSpeed_iff ..).2 hd), ← divisor8_le_iff hb]
  · have fits : divisor16 p.clkFreq baud < 2 ^ p.divW := by
      rw [← Bool.not_eq_true, divisorOverflows_iff] at h
      omega
    rw [divisorValue_normal (by omega), Nat.mod_eq_of_lt fits, if_neg (mt (doubleSpeed_iff ..).1 hd),
      ← divisor16_le_iff hb]

/-- The register holds the latched divisor exactly, `DIV_W` being at most 16 (R25, R106). -/
theorem toNat_ofNat_divisorValue (p : Params) (baud : Nat) :
    (BitVec.ofNat 16 (divisorValue p baud)).toNat = divisorValue p baud := by
  have := divisorValue_lt p baud
  have := two_pow_divW_range p
  rw [BitVec.toNat_ofNat, Nat.mod_eq_of_lt (by omega)]

/-- Rounding up never passes the dividend. -/
theorem ceilDiv_le_self {a b : Nat} (hb : 1 ≤ b) : ceilDiv a b ≤ a :=
  (ceilDiv_le_iff hb).2 (Nat.le_mul_of_pos_right a hb)

/-- A baud rate that is not 0 is a positive number (R101). -/
theorem one_le_baud {baud : BitVec 32} (hz : baud ≠ 0#32) : 1 ≤ baud.toNat :=
  Nat.one_le_iff_ne_zero.2 fun h => hz (BitVec.eq_of_toNat_eq h)

/-- Settles O14: the widths of the operands, the quotients, and the value latched. -/
theorem divisorArithmeticIsExact : Obligations.DivisorArithmeticIsExact := by
  intro p baud hz
  have hb := one_le_baud hz
  have baud_lt := baud.isLt
  exact ⟨by omega, by omega, (clkFreq_range p).2, ceilDiv_le_self (by omega), ceilDiv_le_self (by omega),
    divisorValue_lt .., toNat_ofNat_divisorValue ..⟩

/-! ### The state an accepted `CONFIGURE` leaves -/

section Accepted

variable {p : Params} {dsz : BitVec 2} {stp : BitVec 1} {par : BitVec 2} {baud : BitVec 32} {s : State}

theorem configureBody_div :
    (configureBody p dsz stp par baud s).div = some (BitVec.ofNat 16 (divisorValue p baud.toNat)) := rfl

theorem configureBody_u2x :
    (configureBody p dsz stp par baud s).u2x = doubleSpeed p.clkFreq baud.toNat := rfl

theorem configureBody_divOvf :
    (configureBody p dsz stp par baud s).divOvf = divisorOverflows p baud.toNat := rfl

/-- The state after `CONFIGURE` latches nothing of the configuration before it (R111). -/
theorem configureBody_overwrites (dv : Option Half) (md : Option Byte) (tx rx u c o : Bool) :
    configureBody p dsz stp par baud
        { s with div := dv, mode := md, txen := tx, rxen := rx, u2x := u, configured := c, divOvf := o } =
      configureBody p dsz stp par baud s := rfl

theorem configureBody_idem :
    configureBody p dsz stp par baud (configureBody p dsz stp par baud s) = configureBody p dsz stp par baud s := rfl

/-- An idle core that is not halted executes a `CONFIGURE` with legal operands (R100). -/
theorem exec_configure_accepted (hf : s.faulted = false) (hb : s.busy = false) (hp : par ≠ parReserved)
    (hz : baud ≠ 0#32) :
    exec (.configure dsz stp par baud) s = .next (configureBody Config.params dsz stp par baud s) :=
  congrArg Host.Outcome.next (configureWith_accepted hf hb hp hz)

end Accepted

theorem doubleSpeed_eq (clk baud : Nat) : doubleSpeed clk baud = decide (divisor8 clk baud ≤ 255) := rfl

theorem divisorValue_eq (p : Params) (baud : Nat) :
    divisorValue p baud =
      if divisor8 p.clkFreq baud ≤ 255 then divisor8 p.clkFreq baud else divisor16 p.clkFreq baud % 2 ^ p.divW := by
  split
  · exact divisorValue_double ‹_›
  · exact divisorValue_normal (by omega)

theorem divisorOverflows_eq (p : Params) (baud : Nat) :
    divisorOverflows p baud =
      decide (¬ divisor8 p.clkFreq baud ≤ 255 ∧ 2 ^ p.divW ≤ divisor16 p.clkFreq baud) := by
  rw [Bool.eq_iff_iff, divisorOverflows_iff, decide_eq_true_iff, not_le]

/-- Settles O11: the accepted command runs its body, whose divisor, speed and overflow are those of R103 and R104. -/
theorem configureCompletes : Obligations.ConfigureCompletes := by
  intro dsz stp par baud s hf hb hp hz
  rw [exec_configure_accepted hf hb hp hz, configureBody, divisorValue_eq, doubleSpeed_eq, divisorOverflows_eq]
  rfl

/-- Settles O18: the body writes the whole configuration and neither `FAULTED` nor `BUSY`, so it is accepted again. -/
theorem configureOverwrites : Obligations.ConfigureOverwrites := by
  intro dsz stp par baud s hf hb hp hz
  have accepted (u : State) (uf : u.faulted = false) (ub : u.busy = false) :
      exec (.configure dsz stp par baud) u = .next (configureBody Config.params dsz stp par baud u) :=
    exec_configure_accepted uf ub hp hz
  refine ⟨fun dv md a b c d e => ?_, configureBody Config.params dsz stp par baud s, accepted s hf hb, ?_⟩
  · rw [accepted s hf hb, accepted, configureBody_overwrites]
    · exact hf
    · exact hb
  · rw [accepted (configureBody ..) hf hb, configureBody_idem]

/-- Settles O15: the speed and the divisor latched, by the clock they cover. -/
theorem doubleSpeedThreshold : Obligations.DoubleSpeedThreshold := by
  intro p dsz stp par baud s hf hb hp hz
  have hbaud := one_le_baud hz
  rw [configureWith_accepted hf hb hp hz, configureBody_u2x, configureBody_div]
  refine ⟨doubleSpeed_iff_clk_le hbaud, ?_⟩
  have div_zero : some (BitVec.ofNat 16 (divisorValue p baud.toNat)) = some 0#16 ↔ divisorValue p baud.toNat = 0 := by
    rw [Option.some_inj, ← BitVec.toNat_inj, toNat_ofNat_divisorValue, BitVec.toNat_ofNat, Nat.zero_mod]
  rw [div_zero, doubleSpeed_iff, ← divisor8_eq_zero_iff hbaud]
  constructor
  · rintro ⟨zero, double⟩
    rwa [divisorValue_double double] at zero
  · intro zero
    have double : divisor8 p.clkFreq baud.toNat ≤ 255 := by omega
    exact ⟨(divisorValue_double double).trans zero, double⟩

/-- Settles O16: out of double speed's reach 128 periods of `16 × BAUD` do not cover the clock. -/
theorem normalSpeedBounds : Obligations.NormalSpeedBounds := by
  intro p dsz stp par baud s hf hb hp hz
  have hbaud := one_le_baud hz
  rw [configureWith_accepted hf hb hp hz, configureBody_u2x, configureBody_divOvf]
  refine ⟨fun normal => ?_, divisorOverflows_iff_lt_clk hbaud⟩
  rw [← Bool.not_eq_true, doubleSpeed_iff_clk_le hbaud] at normal
  rw [le_divisor16_iff hbaud (by decide)]
  omega

/-- Settles O17: the latched divisor covers the clock, and the quotient of R114 is that bound divided. -/
theorem effectiveRateNotAboveRequested : Obligations.EffectiveRateNotAboveRequested := by
  intro p dsz stp par baud s hf hb hp hz
  rw [configureWith_accepted hf hb hp hz, configureBody_u2x, configureBody_divOvf]
  intro no_overflow
  refine ⟨_, configureBody_div, ?_⟩
  have covers := clkFreq_le_of_not_divisorOverflows (one_le_baud hz) no_overflow
  rw [toNat_ofNat_divisorValue, div_le_iff₀ (by split <;> positivity)]
  calc (p.clkFreq : ℚ)
      ≤ ((divisorValue p baud.toNat + 1) *
          ((if doubleSpeed p.clkFreq baud.toNat then 8 else 16) * baud.toNat) : ℕ) := Nat.cast_le.2 covers
    _ = _ := by push_cast; ring

/-! ### The fields of the mode byte -/

/-- Bytes that differ in one term of an OR do not differ where both values of that term are 0. -/
theorem or_xor_or_and_eq_zero {x y mask : Byte} (rest : Byte) (hx : x &&& mask = 0#8) (hy : y &&& mask = 0#8) :
    ((rest ||| x) ^^^ (rest ||| y)) &&& mask = 0#8 := by
  ext i hi
  have bit_x := congrArg (·[i]) hx
  have bit_y := congrArg (·[i]) hy
  simp only [BitVec.getElem_and, BitVec.getElem_or, BitVec.getElem_xor, BitVec.getElem_zero] at bit_x bit_y ⊢
  grind

/-- Settles O9: each field's term of the mode byte is 0 outside the field's bits. -/
theorem modeFieldsIndependent : Obligations.ModeFieldsIndependent := by
  intro p d d' q q' r r'
  have dsz_bits : ∀ d : BitVec 2, d.setWidth 8 <<< 1 &&& 0xF9#8 = 0#8 := by decide
  have stp_bits : ∀ q : BitVec 1, q.setWidth 8 <<< 3 &&& 0xF7#8 = 0#8 := by decide
  have par_bits : ∀ r : BitVec 2, r.setWidth 8 <<< 4 &&& 0xCF#8 = 0#8 := by decide
  have stp_last (q : BitVec 1) : modeByte p d q r =
      ((selBit p).setWidth 8 <<< 7 ||| r.setWidth 8 <<< 4 ||| d.setWidth 8 <<< 1) ||| q.setWidth 8 <<< 3 := by
    rw [modeByte]
    ac_rfl
  have par_last (r : BitVec 2) : modeByte p d q r =
      ((selBit p).setWidth 8 <<< 7 ||| q.setWidth 8 <<< 3 ||| d.setWidth 8 <<< 1) ||| r.setWidth 8 <<< 4 := by
    rw [modeByte]
    ac_rfl
  refine ⟨or_xor_or_and_eq_zero _ (dsz_bits d) (dsz_bits d'), ?_, ?_⟩
  · rw [stp_last q, stp_last q']
    exact or_xor_or_and_eq_zero _ (stp_bits q) (stp_bits q')
  · rw [par_last r, par_last r']
    exact or_xor_or_and_eq_zero _ (par_bits r) (par_bits r')

/-! ### What the commands leave unchanged -/

/-- A command is ignored, records a fault, or runs its body (R192 to R194). -/
theorem acceptCommand_outcome {cw : CmdWord} {checks : List (Bool × FaultCause)} {body : State → State} {s t : State}
    (h : Host.Outcome.next (acceptCommand cw checks body s) = (.next t : Result)) :
    t = s ∨ (∃ c, t = raiseFault c cw s) ∨ t = body s := by
  cases h
  obtain ⟨-, e⟩ | ⟨-, c, -, e⟩ | ⟨-, -, -, e⟩ := acceptCommand_cases cw checks body s
  · exact .inl e
  · exact .inr (.inl ⟨c, e⟩)
  · exact .inr (.inr e)

/-- Settles O21: an ignored command leaves everything, a faulting one writes the record only, and the two bodies leave
the record. -/
theorem commandFrame : Obligations.CommandFrame := by
  intro s t
  constructor
  · intro dsz stp par baud h
    obtain rfl | ⟨c, rfl⟩ | rfl := acceptCommand_outcome h
    · exact ⟨rfl, rfl, rfl, rfl, rfl, rfl, rfl, rfl, rfl, fun _ => rfl, .inl ⟨rfl, rfl, rfl⟩⟩
    · exact ⟨rfl, rfl, rfl, rfl, rfl, rfl, rfl, rfl, rfl, fun _ => rfl, .inr ⟨rfl, rfl, rfl, rfl, rfl, rfl, rfl⟩⟩
    · exact ⟨rfl, rfl, rfl, rfl, rfl, rfl, rfl, rfl, rfl, fun _ => rfl, .inl ⟨rfl, rfl, rfl⟩⟩
  · intro maxlen base h
    obtain rfl | ⟨c, rfl⟩ | rfl := acceptCommand_outcome h
    · exact ⟨rfl, rfl, rfl, rfl, rfl, rfl, rfl, rfl, rfl, rfl, rfl, fun _ => rfl, .inl ⟨rfl, rfl, rfl⟩⟩
    · exact ⟨rfl, rfl, rfl, rfl, rfl, rfl, rfl, rfl, rfl, rfl, rfl, fun _ => rfl, .inr ⟨rfl, rfl, rfl, rfl, rfl⟩⟩
    · exact ⟨rfl, rfl, rfl, rfl, rfl, rfl, rfl, rfl, rfl, rfl, rfl, fun _ => rfl, .inl ⟨rfl, rfl, rfl⟩⟩

end Sys2Proof.Machine
end

section
/-! PROOFS. The family 41_channel: the two channel agents' steps (R134, R135, R138), the waits of `CORE` (R136, R197),
and that neither these agents nor LRX read the divisor, the speed or the mode byte. -/

namespace Sys2Proof.Machine

variable {s t : State} {m : Move}

/-! ### The channel agents and the waits -/

theorem chanRxStep_enabled {b : Byte} (h : s.rxen = true) : chanRxStep b s = .next (s.withRxq (s.rxq ++ [b])) :=
  if_pos h

theorem chanRxStep_disabled {b : Byte} (h : s.rxen = false) : chanRxStep b s = .next s :=
  if_neg (ne_true_of_eq_false h)

theorem chanTxStep_ready {b : Byte} (hen : s.txen = true) (hb : s.txh = some b) :
    chanTxStep s = .next (s.drainTx b) := by
  simp [chanTxStep, hen, hb]

theorem chanTxStep_not_ready (h : chanTxReady s = false) : chanTxStep s = .next s := by
  obtain ⟨b, hb, hen, -⟩ | ⟨-, e⟩ := chanTxStep_cases s
  · simp [chanTxReady, hb, hen] at h
  · exact e

theorem chanTxReady_eq_false_iff (s : State) : chanTxReady s = false ↔ s.txen = false ∨ s.txh = none := by
  cases hen : s.txen <;> simp [chanTxReady, hen]

/-- Settles O34: each agent where it is enabled and where it is not. -/
theorem channelAgentSteps : Obligations.ChannelAgentSteps := by
  intro s b
  exact ⟨chanRxStep_enabled, chanRxStep_disabled, chanTxStep_ready, fun hoff =>
    chanTxStep_not_ready ((chanTxReady_eq_false_iff s).2 hoff)⟩

/-- Settles O32: where `CORE` waits, it has no enabled step. -/
theorem waitingStepsChangeNothing : Obligations.WaitingStepsChangeNothing := by
  intro s
  refine ⟨fun hl hroom hq => coreStep_not_enabled ?_, fun hl hfull => coreStep_not_enabled ?_⟩
  · simp [coreEnabled, hl, (hasRoom_iff s).2 hroom, rxc, hq]
  · have hu : udre s = false := Option.isNone_eq_false_iff.2 (Option.isSome_iff_ne_none.2 hfull)
    obtain hl | hl := hl <;> simp [coreEnabled, hl, hu]

/-! ### The divisor, the speed and the mode byte -/

/-- The state under other values of what `CONFIGURE` latches beside the enables (R25 to R28, R110). -/
def State.withLatched (s : State) (div : Option Half) (mode : Option Byte) (u2x divOvf : Bool) : State :=
  { s with div := div, mode := mode, u2x := u2x, divOvf := divOvf }

/-- A `CORE` step does the same under any latched values: no guard of it names one, and no write of it reaches one. -/
theorem CoreStepTo.under_any_latched (k : CoreStepTo s (.next t)) (div : Option Half) (mode : Option Byte)
    (u2x divOvf : Bool) :
    CoreStepTo (s.withLatched div mode u2x divOvf) (.next (t.withLatched div mode u2x divOvf)) := by
  cases k with
  | wait h => exact .wait h
  | full hf hl hr => exact .full hf hl hr
  | cr q hf hl hr hq => exact .cr q hf hl hr hq
  | lf q hf hl hr hq => exact .lf q hf hl hr hq
  | erase c q hf hl hr hq hc hi => exact .erase c q hf hl hr hq hc hi
  | store c q hf hl hr hq h1 h2 h3 ha => exact .store c q hf hl hr hq h1 h2 h3 ha
  | peek hf hl => exact .peek hf hl
  | eraseSp hf hl h => exact .eraseSp hf hl h
  | eraseBs hf hl h => exact .eraseBs hf hl h
  | term hf hl ha => exact .term hf hl ha

/-- A step of any agent but the host does the same under any latched values (R134, R135). -/
theorem agentStep_under_any_latched (hm : ∀ h, m ≠ .host h) (h : agentStep m s = .next t) (div : Option Half)
    (mode : Option Byte) (u2x divOvf : Bool) :
    agentStep m (s.withLatched div mode u2x divOvf) = .next (t.withLatched div mode u2x divOvf) := by
  have k := h ▸ agentStep_to m s
  cases k with
  | core _ k => exact (k.under_any_latched div mode u2x divOvf).coreStep_eq
  | received b hen => exact chanRxStep_enabled hen
  | receiverOff b hoff => exact chanRxStep_disabled hoff
  | sent b hen hb => exact chanTxStep_ready hen hb
  | notReady hr => exact chanTxStep_not_ready hr
  | _ => exact absurd rfl (hm _)

/-- Only the host's moves write the configuration (R25 to R28). -/
theorem AgentStepTo.sameConfig_of_not_host (k : AgentStepTo s m (.next t)) (hm : ∀ h, m ≠ .host h) :
    SameConfig s t := by
  obtain same | ⟨_, _, _, _, _, hc, -⟩ | ⟨hr, -⟩ := k.config_cases
  · exact same
  · exact absurd hc (hm _)
  · exact absurd hr (hm _)

/-- Settles O37: the three moves are those that are not the host's. -/
theorem channelIgnoresDivisorAndMode : Obligations.ChannelIgnoresDivisorAndMode := by
  intro s t mv dv md u ovf hmv h
  have hm : ∀ h, mv ≠ .host h := by
    obtain rfl | rfl | ⟨b, rfl⟩ := hmv <;> exact nofun
  have same : SameConfig s t := (h ▸ agentStep_to mv s).sameConfig_of_not_host hm
  exact ⟨same.div, same.mode, same.u2x, same.divOvf, agentStep_under_any_latched hm h dv md u ovf⟩

end Sys2Proof.Machine
end

section
/-! PROOFS. The family 42_line_receive: `RECV_LINE` (R150), each step of LRX (R153 to R163) and what it leaves alone,
what LRX sends (R164), and the whole line against the sequential procedure (R171, R172). -/

namespace Sys2Proof.Machine

variable {s t u : State} {m : Move}

/-! ### RECV_LINE -/

/-- An idle core that is not halted runs a command none of whose checks fails (R193). -/
theorem acceptCommand_body {cw : CmdWord} {checks : List (Bool × FaultCause)} {body : State → State}
    (hf : s.faulted = false) (hb : s.busy = false) (h : firstFault checks = none) :
    acceptCommand cw checks body s = body s := by
  simp [acceptCommand, hf, hb, h]

/-- Settles O19: no check of `RECV_LINE` fails, so its body runs. -/
theorem recvLineCompletes : Obligations.RecvLineCompletes := by
  intro maxlen base s hf hb hc hlen hend
  have hlen : maxlen ≠ 0#16 := half_ne_zero_iff.2 hlen
  have hend : ¬ dmemSize < bufferEnd base maxlen := Nat.not_lt.2 hend
  exact congrArg Host.Outcome.next (acceptCommand_body hf hb (by simp [hc, hlen, hend]))

/-- Settles O20: the first check of `RECV_LINE` that fails is the fault recorded. -/
theorem recvLineOperandFaults : Obligations.RecvLineOperandFaults := by
  intro maxlen base s hf hb
  refine ⟨fun hc => ?_, fun hc hlen => ?_, fun hc hlen hend => ?_⟩
  · exact congrArg Host.Outcome.next (acceptCommand_fault hf hb (c := .notConfigured) (by simp [hc]))
  · exact congrArg Host.Outcome.next (acceptCommand_fault hf hb (c := .lenZero) (by simp [hc, hlen]))
  · have hend : dmemSize < bufferEnd base maxlen := hend
    exact congrArg Host.Outcome.next (acceptCommand_fault hf hb (c := .bufRange) (by simp [hc, hlen, hend]))

/-! ### A byte class that acts -/

/-- The store of R158: the byte at the write index, the index advanced, LRX at the top of its loop. -/
def State.stored (s : State) (c : Byte) : State :=
  ((s.withDmem (Memory.write s.dmem (bufAddr s) c)).withIdx (s.idx + 1#16)).withLState .fetch

theorem State.byteAt_stored_same (c : Byte) : (s.stored c).byteAt (bufAddr s) = some c :=
  Memory.read_write_same s.dmem (bufAddr s) c

theorem State.byteAt_stored_other (c : Byte) {a : Nat} (h : a ≠ bufAddr s) : (s.stored c).byteAt a = s.byteAt a :=
  Memory.read_write_other s.dmem c h

/-- A store inside `DMEM` completes (R158). -/
theorem storeByte_inside (c : Byte) (ha : bufAddr s < dmemSize) : storeByte c s = .next (s.stored c) := by
  obtain ⟨-, e⟩ | ⟨ha', -⟩ := storeByte_cases c s
  · exact e
  · exact absurd ha (Nat.not_lt.2 ha')

/-- A store that answers a next state answers the byte stored (R158). -/
theorem storeByte_next {c : Byte} (h : storeByte c s = .next t) : t = s.stored c := by
  obtain ⟨-, e⟩ | ⟨-, e⟩ := storeByte_cases c s <;> rw [e] at h <;> cases h
  rfl

theorem eraseByte_eq (hi : 0 < s.idx.toNat) :
    eraseByte s = .next ((s.withIdx (BitVec.ofNat 16 (s.idx.toNat - 1))).withLState .eraseSp) := by
  rw [eraseByte, idx_pred hi]

/-- Settles O22: where LRX reads a byte, the two terminator classes and the `CORE` step that reads them. -/
theorem terminatorBytesComplete : Obligations.TerminatorBytesComplete := by
  intro s q hf hl hr
  have ready : lineByteReady s = true := (lineByteReady_iff s).2 ⟨hf, hl, hr⟩
  have hr : hasRoom s = true := (hasRoom_iff s).2 hr
  refine ⟨?_, ?_, ?_, ?_⟩
  · exact onLineByte_ready ready fun t => .next (t.withLState .peek)
  · exact onLineByte_ready ready fun t => .next (t.withLState .term)
  · exact (CoreStepTo.cr (s := s.withRxq (byteCR :: q)) q hf hl hr rfl).coreStep_eq
  · exact (CoreStepTo.lf (s := s.withRxq (byteLF :: q)) q hf hl hr rfl).coreStep_eq

/-- Settles O23: both erase classes are the erase step at a positive index, and so is the `CORE` step that reads one. -/
theorem eraseBytesComplete : Obligations.EraseBytesComplete := by
  intro s q hf hl hr hi
  have ready : lineByteReady s = true := (lineByteReady_iff s).2 ⟨hf, hl, hr⟩
  have hr : hasRoom s = true := (hasRoom_iff s).2 hr
  have reads : ∀ c, c = byteBS ∨ c = byteDEL →
      coreStep (s.withRxq (c :: q)) =
        .next (((s.withRxq q).withIdx (BitVec.ofNat 16 (s.idx.toNat - 1))).withLState .eraseSp) := fun c hc => by
    rw [← idx_pred hi]
    exact (CoreStepTo.erase (s := s.withRxq (c :: q)) c q hf hl hr rfl hc hi).coreStep_eq
  refine ⟨?_, ?_, reads byteBS (.inl rfl), reads byteDEL (.inr rfl)⟩
  · rw [← decodeByte_bs hi, exec_decodeByte_erase (.inl rfl) hi ready]
    exact eraseByte_eq hi
  · rw [← decodeByte_del hi, exec_decodeByte_erase (.inr rfl) hi ready]
    exact eraseByte_eq hi

/-- Settles O24: where LRX reads a byte, `RXB_DATA` is a store inside `DMEM`. -/
theorem dataByteCompletes : Obligations.DataByteCompletes := by
  intro c s hf hl hr ha
  refine ⟨s.stored c, ?_, ?_, State.byteAt_stored_same c, fun a h => State.byteAt_stored_other c h⟩
  · exact (onLineByte_ready ((lineByteReady_iff s).2 ⟨hf, hl, hr⟩) _).trans (storeByte_inside c ha)
  · rw [← idx_succ]
    rfl

/-- The `CORE` step that reads a byte of none of the other classes stores it (R158, R159, R170). -/
theorem coreStep_stores {c : Byte} {q : List Byte} (hf : s.faulted = false) (hl : s.lstate = .fetch)
    (hr : s.idx.toNat + 1 < s.lmax.toNat) (h1 : c ≠ byteCR) (h2 : c ≠ byteLF)
    (h3 : ¬ ((c = byteBS ∨ c = byteDEL) ∧ 0 < s.idx.toNat)) (ha : bufAddr s < dmemSize) :
    coreStep (s.withRxq (c :: q)) = .next ((s.withRxq q).stored c) :=
  (CoreStepTo.store (s := s.withRxq (c :: q)) c q hf hl ((hasRoom_iff s).2 hr) rfl h1 h2 h3 ha).coreStep_eq

/-- Settles O25: at index 0 neither byte is an erase, and `LBASE` itself is the address. -/
theorem eraseOnEmptyIsStored : Obligations.EraseOnEmptyIsStored := by
  intro c q s hc hf hl hi hr
  have addr : bufAddr s = s.lbase.toNat := by simp [bufAddr, hi]
  have not_cr : c ≠ byteCR := by obtain rfl | rfl := hc <;> decide
  have not_lf : c ≠ byteLF := by obtain rfl | rfl := hc <;> decide
  have stores : coreStep (s.withRxq (c :: q)) = .next ((s.withRxq q).stored c) :=
    coreStep_stores hf hl (by simpa [hi] using hr) not_cr not_lf (by simp [hi]) (addr ▸ s.lbase.isLt)
  refine ⟨_, stores, ?_, ?_, fun a h => ?_⟩
  · rw [State.stored, State.withRxq_idx, hi, ← hl]
    rfl
  · exact addr ▸ State.byteAt_stored_same (s := s.withRxq q) c
  · exact State.byteAt_stored_other (s := s.withRxq q) c (addr.symm ▸ h)

/-- Settles O26: the byte is of no other class, so it is stored. -/
theorem everyOtherByteIsStored : Obligations.EveryOtherByteIsStored := by
  intro c q s h1 h2 h3 hf hl hr ha
  have not_erase : ¬ ((c = byteBS ∨ c = byteDEL) ∧ 0 < s.idx.toNat) := fun ⟨hc, hi⟩ => hc.elim (h3 hi).1 (h3 hi).2
  refine ⟨_, coreStep_stores hf hl hr h1 h2 not_erase ha, State.byteAt_stored_same (s := s.withRxq q) c, ?_, rfl, rfl,
    rfl, rfl⟩
  show (s.idx + 1#16).toNat = s.idx.toNat + 1
  rw [idx_succ, BitVec.toNat_ofNat]
  omega

/-! ### What a byte class leaves unchanged -/

/-- A byte class that answers a next state acted, or left the state alone (R152, log 3). -/
theorem onLineByte_next {action : State → Result} (h : onLineByte action s = .next t) : t = s ∨ action s = .next t := by
  obtain ⟨-, e⟩ | ⟨-, e⟩ := onLineByte_cases action s <;> rw [e] at h
  · exact .inr h
  · cases h
    exact .inl rfl

/-- A backspace or delete byte erases at a positive index and is stored at index 0 (R157, R159). -/
theorem eraseOrStore_next {c : Byte} (h : eraseOrStore c s = .next t) :
    (s.idx = 0#16 ∧ t = s.stored c) ∨ t = (s.withIdx (s.idx - 1#16)).withLState .eraseSp := by
  by_cases hi : s.idx = 0#16
  · rw [eraseOrStore, if_pos hi] at h
    exact .inl ⟨hi, storeByte_next h⟩
  · rw [eraseOrStore, if_neg hi] at h
    cases h
    exact .inr rfl

/-- Everything a byte class can do: go on in `LSTATE` only, erase, or store (R155 to R159). -/
inductive ByteClassTo (s : State) (i : Instr) : State → Prop
  | goesOn (l : LState) : ByteClassTo s i (s.withLState l)
  | erases (j : Half) : i = .rxbBs ∨ i = .rxbDel → ByteClassTo s i ((s.withIdx j).withLState .eraseSp)
  | stores (c : Byte) : i ≠ .rxbCr → i ≠ .rxbLf → (i = .rxbBs ∨ i = .rxbDel → s.idx = 0#16) →
      ByteClassTo s i (s.stored c)

/-- A byte class does one of the things of `ByteClassTo`. -/
theorem byteClassTo_of_exec {i : Instr}
    (hi : i = .rxbCr ∨ i = .rxbLf ∨ i = .rxbBs ∨ i = .rxbDel ∨ ∃ c, i = .rxbData c) (h : exec i s = .next t) :
    ByteClassTo s i t := by
  have acts : ∀ {action : State → Result}, onLineByte action s = .next t →
      (action s = .next t → ByteClassTo s i t) → ByteClassTo s i t := fun h act => by
    obtain rfl | e := onLineByte_next h
    · exact .goesOn t.lstate
    · exact act e
  have erase : ∀ {c : Byte}, i = .rxbBs ∨ i = .rxbDel → eraseOrStore c s = .next t → ByteClassTo s i t :=
    fun hi e => by
      obtain ⟨hz, rfl⟩ | rfl := eraseOrStore_next e
      · exact .stores _ (by rintro rfl; simp at hi) (by rintro rfl; simp at hi) fun _ => hz
      · exact .erases _ hi
  obtain rfl | rfl | rfl | rfl | ⟨c, rfl⟩ := hi
  · exact acts (action := fun t => .next (t.withLState .peek)) h fun e => by cases e; exact .goesOn .peek
  · exact acts (action := fun t => .next (t.withLState .term)) h fun e => by cases e; exact .goesOn .term
  · exact acts h (erase (.inl rfl))
  · exact acts h (erase (.inr rfl))
  · exact acts h fun e => storeByte_next e ▸ .stores c nofun nofun (by simp)

/-- Settles O27: only a store changes a byte of `DMEM`, and a class that goes on in `LSTATE` leaves the index too. -/
theorem receivedByteFrame : Obligations.ReceivedByteFrame := by
  intro i s t hi h
  have k := byteClassTo_of_exec hi h
  cases k with
  | goesOn l => exact ⟨rfl, fun _ => rfl, fun _ _ => rfl, fun _ _ => rfl⟩
  | erases j he => exact ⟨rfl, fun hc => by obtain rfl | rfl := hc <;> simp at he, fun _ _ => rfl, fun _ _ => rfl⟩
  | stores c hcr hlf hz =>
    refine ⟨rfl, fun hc => (hc.elim hcr hlf).elim, fun a ha => State.byteAt_stored_other c ha, ?_⟩
    rintro (hc | hc | ⟨he, hpos⟩)
    · exact absurd hc hcr
    · exact absurd hc hlf
    · exact absurd (hz he) (half_ne_zero_iff.2 hpos)

/-! ### The steps that read no byte -/

/-- Settles O28: the full buffer is the one without room. -/
theorem fullBufferEndsLine : Obligations.FullBufferEndsLine := by
  intro s hf hl hfull
  have no_room : hasRoom s = false := Bool.eq_false_iff.2 (mt (hasRoom_iff s).1 (by omega))
  exact (CoreStepTo.full hf hl no_room).coreStep_eq

/-- Settles O29: the peek goes to `TERM` with the tail of the queue, which of an empty queue is itself. -/
theorem peekDiscardsOneByte : Obligations.PeekDiscardsOneByte := by
  intro s hf hl
  have peeks : ∀ q, s.rxq.tail = q → coreStep s = .next ((s.withRxq q).withLState .term) := by
    rintro q rfl
    exact (CoreStepTo.peek hf hl).coreStep_eq
  exact ⟨fun hq => peeks s.rxq (by rw [hq]; rfl), fun c q hq => peeks q (by rw [hq]; rfl)⟩

/-- Settles O30: the two sends and the wait. -/
theorem eraseSequenceSteps : Obligations.EraseSequenceSteps := by
  intro s hf
  obtain ⟨-, waits⟩ := waitingStepsChangeNothing s
  exact ⟨fun hl hb => ⟨_, (CoreStepTo.eraseSp hf hl hb).coreStep_eq, rfl⟩,
    fun hl hb => ⟨_, (CoreStepTo.eraseBs hf hl hb).coreStep_eq, rfl⟩, waits⟩

/-- Settles O31: the terminator step inside `DMEM`. -/
theorem termPublishesLine : Obligations.TermPublishesLine := by
  intro s hf hl ha
  exact ⟨_, (CoreStepTo.term hf hl ha).coreStep_eq, rfl, Memory.read_write_same s.dmem _ byteNUL,
    fun a h => Memory.read_write_other s.dmem byteNUL h⟩

/-- A `CORE` step that is enabled moves on in `LSTATE`, or takes a byte from the receive queue. -/
theorem CoreStepTo.moves_on (k : CoreStepTo s (.next t)) (hen : coreEnabled s = true) :
    t.lstate ≠ s.lstate ∨ t.rxq ≠ s.rxq := by
  cases k with
  | wait h => exact absurd hen (ne_true_of_eq_false h)
  | cr q _ _ _ hq | lf q _ _ _ hq | erase _ q _ _ _ hq | store _ q _ _ _ hq =>
    exact .inr fun e => List.cons_ne_self _ q (hq.symm.trans e.symm)
  | full _ hl | peek _ hl | eraseSp _ hl | eraseBs _ hl | term _ hl => exact .inl fun e => nomatch e.trans hl

/-- Settles O33: an enabled step moves on, and one that is not enabled changes nothing. -/
theorem coreStepActsExactlyWhenEnabled : Obligations.CoreStepActsExactlyWhenEnabled := by
  intro s
  constructor
  · intro hen h
    obtain hl | hq := (h ▸ coreStep_to s).moves_on hen
    · exact hl rfl
    · exact hq rfl
  · intro h
    by_contra hen
    exact h (coreStep_not_enabled (Bool.eq_false_iff.2 hen))

/-- Settles O47: the scripted move is the `CORE` step that reads the byte. -/
theorem stepRunsReadByte : Obligations.StepRunsReadByte := by
  intro c q rest s scripted hq hf hl hr
  rw [step_scripted scripted]
  exact coreStep_reads (s := s.popMove rest) hf hl ((hasRoom_iff s).2 hr) hq

/-! ### What LRX sends -/

/-- What a `CORE` step puts out: nothing, or the byte of an erase step (R161, R162, R164). -/
theorem CoreStepTo.sentStream_cases (k : CoreStepTo s (.next t)) :
    sentStream t = sentStream s ∨ (s.lstate = .eraseSp ∧ sentStream t = sentStream s ++ [byteSP]) ∨
      (s.lstate = .eraseBs ∧ sentStream t = sentStream s ++ [byteBS]) := by
  cases k with
  | eraseSp _ hl h => exact .inr (.inl ⟨hl, by simp [sentStream, h]⟩)
  | eraseBs _ hl h => exact .inr (.inr ⟨hl, by simp [sentStream, h]⟩)
  | _ => exact .inl rfl

/-- What an agent's step does to the bytes put out: `CHAN_TX` only carries one on, and reset drops all (R135, R164). -/
theorem AgentStepTo.sentStream_cases (k : AgentStepTo s m (.next t)) :
    sentStream t = sentStream s ∨ (m = .core ∧ s.lstate = .eraseSp ∧ sentStream t = sentStream s ++ [byteSP]) ∨
      (m = .core ∧ s.lstate = .eraseBs ∧ sentStream t = sentStream s ++ [byteBS]) ∨
      (m = .host .reset ∧ sentStream t = []) := by
  cases k with
  | core _ k => exact k.sentStream_cases.imp_right (Or.imp (⟨rfl, ·⟩) fun h => .inl ⟨rfl, h⟩)
  | sent b _ h => exact .inl (by simp [sentStream, h])
  | reset => exact .inr (.inr (.inr ⟨rfl, rfl⟩))
  | _ => exact .inl rfl

/-- Settles O35: the step is an agent's, from a state with the same bytes put out. -/
theorem onlyEraseBytesAreSent : Obligations.OnlyEraseBytesAreSent := by
  intro s t h
  obtain ⟨_, _, _, _, k⟩ := agentStepTo_of_step h
  exact k.sentStream_cases

/-! ### The whole line: rounds of a `CORE` and a `CHAN_TX` step -/

/-- A `FETCH` with room waits while nothing has been received (R152, R154). -/
theorem coreEnabled_fetch_waits (hl : s.lstate = .fetch) (hr : hasRoom s = true) (hq : s.rxq = []) :
    coreEnabled s = false := by
  simp [coreEnabled, hl, hr, rxc, hq]

/-- A line that waits for input is stuck, not ended (R197, R234). -/
theorem stuck_fetch (hf : s.faulted = false) (hl : s.lstate = .fetch) (hr : hasRoom s = true) (hq : s.rxq = []) :
    stuck s = true := by
  simp [stuck, hf, hl, coreEnabled_fetch_waits hl hr hq]

/-- The byte of `TXH`, if there is one, has gone to the line. -/
def State.flushTx (s : State) : State := { s with txh := none, txline := sentStream s }

@[simp] theorem State.flushTx_withLState (l : LState) : (s.withLState l).flushTx = s.flushTx.withLState l := rfl
@[simp] theorem State.flushTx_withIdx (i : Half) : (s.withIdx i).flushTx = s.flushTx.withIdx i := rfl
@[simp] theorem State.flushTx_withRxq (q : List Byte) : (s.withRxq q).flushTx = s.flushTx.withRxq q := rfl
@[simp] theorem State.flushTx_withDmem (d : Memory) : (s.withDmem d).flushTx = s.flushTx.withDmem d := rfl
@[simp] theorem State.flushTx_closeLine : s.closeLine.flushTx = s.flushTx.closeLine := rfl

theorem State.flushTx_of_empty (hb : s.txh = none) : s.flushTx = s := by
  rw [State.flushTx, sentStream, hb, Option.toList_none, List.append_nil, ← hb]

/-- With `TXEN = 1` a `CHAN_TX` move leaves `TXH` empty, whether or not it held a byte (R135, log 3). -/
theorem chanTxStep_eq_flushTx (hen : s.txen = true) : chanTxStep s = .next s.flushTx := by
  cases hb : s.txh with
  | some b =>
    rw [chanTxStep_ready hen hb, State.flushTx, sentStream, hb]
    rfl
  | none => rw [chanTxStep_not_ready ((chanTxReady_eq_false_iff s).2 (.inr hb)), State.flushTx_of_empty hb]

/-- The moves still scripted do not matter to a `CHAN_TX` step. -/
theorem chanTxStep_popMove (s : State) (rest : List Move) :
    chanTxStep (s.popMove rest) = andThen (chanTxStep s) fun t => .next (t.popMove rest) := by
  unfold chanTxStep
  rw [State.popMove_txh, State.popMove_txen]
  cases s.txh <;> cases s.txen <;> rfl

/-- One round: the `CORE` steps and then `CHAN_TX` does. -/
def Round (s t : State) : Prop := ∃ u, coreStep s = .next u ∧ chanTxStep u = .next t

/-- Some number of rounds. -/
abbrev Rounds : State → State → Prop := Relation.ReflTransGen Round

/-- A round with `TXEN = 1` is a `CORE` step, after which `TXH` is empty. -/
theorem Round.of_coreStepTo (k : CoreStepTo s (.next t)) (hen : s.txen = true) : Round s t.flushTx :=
  ⟨t, k.coreStep_eq, chanTxStep_eq_flushTx (k.sameConfig.txen.trans hen)⟩

/-- Rounds are what the machine runs under a schedule of rounds. -/
theorem Rounds.run (h : Rounds s t) :
    ∃ n, core.run (2 * n) (s.popMove (coreRounds n)) = .next (t.popMove []) := by
  induction h using Relation.ReflTransGen.head_induction_on with
  | refl => exact ⟨0, rfl⟩
  | @head s v round _ ih =>
    obtain ⟨n, run⟩ := ih
    obtain ⟨u, coreMoves, chanTxMoves⟩ := round
    have step_core : step (s.popMove (coreRounds (n + 1))) = .next (u.popMove (.chanTx :: coreRounds n)) := by
      rw [step_scripted rfl]
      exact (coreStep_popMove s _).trans (by rw [coreMoves]; rfl)
    have step_chanTx : step (u.popMove (.chanTx :: coreRounds n)) = .next (v.popMove (coreRounds n)) := by
      rw [step_scripted rfl]
      exact (chanTxStep_popMove u _).trans (by rw [chanTxMoves]; rfl)
    exact ⟨n + 1, by rw [Nat.mul_succ, core_run_next step_core, core_run_next step_chanTx, run]⟩

/-! ### The states of a line -/

/-- The line that `s` began, further on: at `LSTATE` `l` and write index `idx`, with `mem` in `DMEM`, `sent` echoed and
all of it on the line, and `q` still to be read. -/
def State.lineAt (s : State) (l : LState) (idx : Nat) (mem : Memory) (sent q : List Byte) (wait : Nat) : State :=
  { s with lstate := l, idx := BitVec.ofNat 16 idx, dmem := mem, rxq := q, txh := none, txline := sentStream s ++ sent,
           txWait := wait }

section Line

variable {s₀ : State} {l : LState} {idx wait : Nat} {mem : Memory} {sent q : List Byte} {c : Byte}

theorem State.lineAt_idx (hidx : idx < 65536) : (s₀.lineAt l idx mem sent q wait).idx.toNat = idx := by
  simpa [State.lineAt] using hidx

theorem State.flushTx_lineAt :
    (s₀.lineAt l idx mem sent q wait).flushTx = s₀.lineAt l idx mem sent q wait := by
  simp [State.flushTx, State.lineAt, sentStream]

/-- An echo byte that the line puts out is one more byte sent. -/
theorem State.flushTx_lineAt_holdTx (b : Byte) (l' : LState) :
    (((s₀.lineAt l idx mem sent q wait).holdTx b).withLState l').flushTx =
      s₀.lineAt l' idx mem (sent ++ [b]) q (Config.txPatience s₀.tick) := by
  simp [State.flushTx, State.holdTx, State.withLState, State.lineAt, sentStream]

theorem bufAddr_lineAt (hidx : idx < 65536) :
    bufAddr (s₀.lineAt l idx mem sent q wait) = s₀.lbase.toNat + idx :=
  congrArg (s₀.lbase.toNat + ·) (State.lineAt_idx hidx)

/-- `s` is at the top of the loop on the line that `s₀` began, but that a byte put out earlier may still stand in
`TXH`. -/
structure LoopTop (s₀ s : State) (idx : Nat) (mem : Memory) (sent q : List Byte) (wait : Nat) : Prop where
  line : s.flushTx = s₀.lineAt .fetch idx mem sent q wait
  notFaulted : s₀.faulted = false
  sends : s₀.txen = true
  inDmem : s₀.lbase.toNat + s₀.lmax.toNat ≤ dmemSize
  inBuffer : idx + 1 ≤ s₀.lmax.toNat

namespace LoopTop

variable (h : LoopTop s₀ s idx mem sent q wait)
include h

theorem faulted : s.faulted = false := (show s.flushTx.faulted = s₀.faulted by rw [h.line]; rfl).trans h.notFaulted

theorem txen : s.txen = true := (show s.flushTx.txen = s₀.txen by rw [h.line]; rfl).trans h.sends

theorem lstate : s.lstate = .fetch := show s.flushTx.lstate = .fetch by rw [h.line]; rfl

theorem rxq : s.rxq = q := show s.flushTx.rxq = q by rw [h.line]; rfl

theorem dmem : s.dmem = mem := show s.flushTx.dmem = mem by rw [h.line]; rfl

theorem idx_lt : idx < 65536 := by
  have := h.inBuffer
  omega

theorem idx_eq : s.idx.toNat = idx := show s.flushTx.idx.toNat = idx by rw [h.line, State.lineAt_idx h.idx_lt]

theorem bufAddr_eq : bufAddr s = s₀.lbase.toNat + idx :=
  show bufAddr s.flushTx = _ by rw [h.line, bufAddr_lineAt h.idx_lt]

theorem bufAddr_lt : bufAddr s < dmemSize := by
  have := h.inDmem
  have := h.inBuffer
  rw [h.bufAddr_eq]
  omega

theorem hasRoom_iff : hasRoom s = true ↔ idx + 1 < s₀.lmax.toNat := by
  rw [Machine.hasRoom_iff, h.idx_eq, show s.lmax = s.flushTx.lmax from rfl, h.line]
  rfl

/-! ### One round of a line -/

/-- What a round from the top of the loop leaves of a `CORE` step that answers `t`. -/
theorem round (k : CoreStepTo s (.next t)) (e : t.flushTx = u) : Round s u := e ▸ .of_coreStepTo k h.txen

/-- A round on a full buffer ends the line (R153). -/
theorem round_full (hr : ¬ idx + 1 < s₀.lmax.toNat) : Round s (s₀.lineAt .term idx mem sent q wait) := by
  refine h.round (.full h.faulted h.lstate (Bool.eq_false_iff.2 (mt h.hasRoom_iff.1 hr))) ?_
  rw [State.flushTx_withLState, h.line]
  rfl

end LoopTop

namespace LoopTop

variable (hr : idx + 1 < s₀.lmax.toNat)
include hr

/-- A round with nothing received only sends what stood in `TXH` (R136). -/
theorem round_wait (h : LoopTop s₀ s idx mem sent [] wait) : Round s (s₀.lineAt .fetch idx mem sent [] wait) :=
  h.round (.wait (coreEnabled_fetch_waits h.lstate (h.hasRoom_iff.2 hr) h.rxq)) h.line

/-- A round that reads `CR` goes to the peek (R155). -/
theorem round_cr (h : LoopTop s₀ s idx mem sent (byteCR :: q) wait) :
    Round s (s₀.lineAt .peek idx mem sent q wait) := by
  refine h.round (.cr q h.faulted h.lstate (h.hasRoom_iff.2 hr) h.rxq) ?_
  simp only [State.flushTx_withLState, State.flushTx_withRxq, h.line]
  rfl

/-- A round that reads `LF` ends the line (R156). -/
theorem round_lf (h : LoopTop s₀ s idx mem sent (byteLF :: q) wait) :
    Round s (s₀.lineAt .term idx mem sent q wait) := by
  refine h.round (.lf q h.faulted h.lstate (h.hasRoom_iff.2 hr) h.rxq) ?_
  simp only [State.flushTx_withLState, State.flushTx_withRxq, h.line]
  rfl

/-- A round that reads an erase byte takes the index back, and the echo is to follow (R157). -/
theorem round_erase (h : LoopTop s₀ s idx mem sent (c :: q) wait) (hc : c = byteBS ∨ c = byteDEL) (hi : 0 < idx) :
    Round s (s₀.lineAt .eraseSp (idx - 1) mem sent q wait) := by
  have hi' : 0 < s.idx.toNat := h.idx_eq.symm ▸ hi
  refine h.round (.erase c q h.faulted h.lstate (h.hasRoom_iff.2 hr) h.rxq hc hi') ?_
  simp only [State.flushTx_withLState, State.flushTx_withIdx, State.flushTx_withRxq, h.line, idx_pred hi', h.idx_eq]
  rfl

/-- A round that reads any other byte stores it (R158, R159). -/
theorem round_store (h : LoopTop s₀ s idx mem sent (c :: q) wait) (h1 : c ≠ byteCR) (h2 : c ≠ byteLF)
    (h3 : ¬ ((c = byteBS ∨ c = byteDEL) ∧ 0 < idx)) :
    Round s (s₀.lineAt .fetch (idx + 1) (Memory.write mem (s₀.lbase.toNat + idx) c) sent q wait) := by
  refine h.round (.store c q h.faulted h.lstate (h.hasRoom_iff.2 hr) h.rxq h1 h2 (h.idx_eq.symm ▸ h3) h.bufAddr_lt) ?_
  simp only [State.flushTx_withLState, State.flushTx_withIdx, State.flushTx_withDmem, State.flushTx_withRxq, h.line,
    idx_succ, h.idx_eq, h.bufAddr_eq, h.dmem]
  rfl

end LoopTop

section Later

variable (hf : s₀.faulted = false) (hen : s₀.txen = true)
include hf hen

/-- The peek's round (R160). -/
theorem round_peek : Round (s₀.lineAt .peek idx mem sent q wait) (s₀.lineAt .term idx mem sent q.tail wait) := by
  have r := Round.of_coreStepTo (s := s₀.lineAt .peek idx mem sent q wait) (.peek hf rfl) hen
  simp only [State.flushTx_withLState, State.flushTx_withRxq, State.flushTx_lineAt] at r
  exact r

/-- The two rounds of the erase echo (R161, R162). -/
theorem rounds_echo :
    Rounds (s₀.lineAt .eraseSp idx mem sent q wait)
      (s₀.lineAt .fetch idx mem (sent ++ [byteSP, byteBS]) q (Config.txPatience s₀.tick)) := by
  have sp := Round.of_coreStepTo (s := s₀.lineAt .eraseSp idx mem sent q wait) (.eraseSp hf rfl rfl) hen
  rw [State.flushTx_lineAt_holdTx] at sp
  have bs := Round.of_coreStepTo (s := s₀.lineAt .eraseBs idx mem (sent ++ [byteSP]) q (Config.txPatience s₀.tick))
    (.eraseBs hf rfl rfl) hen
  rw [State.flushTx_lineAt_holdTx, List.append_assoc] at bs
  exact .head sp (.single bs)

/-- The terminator's round closes the line (R163). -/
theorem round_term (hidx : idx < 65536) (haddr : s₀.lbase.toNat + idx < dmemSize) :
    Round (s₀.lineAt .term idx mem sent q wait)
      (s₀.lineAt .term idx (Memory.write mem (s₀.lbase.toNat + idx) byteNUL) sent q wait).closeLine := by
  have r := Round.of_coreStepTo (s := s₀.lineAt .term idx mem sent q wait)
    (.term hf rfl (bufAddr_lineAt hidx ▸ haddr)) hen
  rw [State.flushTx_closeLine, State.flushTx_withDmem, State.flushTx_lineAt, bufAddr_lineAt hidx] at r
  exact r

end Later

/-! ### The line against the procedure -/

/-- Where the line that `s` began is once the procedure of R172 has ended with a result, or has blocked. -/
def LineOutcome (s : State) : Option LineResult → State → Prop
  | some r, t => r.count + 1 ≤ s.lmax.toNat ∧
      ∃ wait, t = (s.lineAt .term r.count r.dmem r.sent r.unread wait).closeLine
  | none, t => ∃ idx mem sent wait, idx + 1 < s.lmax.toNat ∧ t = s.lineAt .fetch idx mem sent [] wait

/-- Rounds from `s` bring the line that `s₀` began where an outcome of the procedure says. -/
def Reaches (s₀ s : State) (o : Option LineResult) : Prop := ∃ t, Rounds s t ∧ LineOutcome s₀ o t

theorem Reaches.of_rounds {o : Option LineResult} (h : Rounds s u) : Reaches s₀ u o → Reaches s₀ s o
  | ⟨t, later, out⟩ => ⟨t, h.trans later, out⟩

namespace LoopTop

/-- The next character starts from a state of the line itself. -/
theorem again {idx' wait' : Nat} {mem' : Memory} {sent' q' : List Byte} (h : LoopTop s₀ s idx mem sent q wait)
    (hi : idx' + 1 ≤ s₀.lmax.toNat) :
    LoopTop s₀ (s₀.lineAt .fetch idx' mem' sent' q' wait') idx' mem' sent' q' wait' :=
  ⟨State.flushTx_lineAt, h.notFaulted, h.sends, h.inDmem, hi⟩

/-- From `TERM` the line ends as the procedure's last two lines do (R163, R172). -/
theorem reaches_finish {unread : List Byte} (h : LoopTop s₀ s idx mem sent q wait)
    (r : Rounds s (s₀.lineAt .term idx mem sent unread wait)) :
    Reaches s₀ s (some (finishLine s₀.lbase.toNat idx mem sent unread)) :=
  ⟨_, r.tail (round_term h.notFaulted h.sends h.idx_lt (h.bufAddr_eq ▸ h.bufAddr_lt)), h.inBuffer, wait, rfl⟩

/-- From the top of the loop the line comes where the procedure does: by induction on the procedure, a round per
byte, with two more for the echo of an erased one. -/
theorem reaches (h : LoopTop s₀ s idx mem sent q wait) :
    Reaches s₀ s (receiveLine s₀.lbase.toNat s₀.lmax.toNat idx mem sent q) := by
  fun_induction receiveLine s₀.lbase.toNat s₀.lmax.toNat idx mem sent q generalizing s wait with
  | case1 idx mem sent hr => exact ⟨_, .single (round_wait hr h), idx, mem, sent, wait, hr, rfl⟩
  | case2 idx mem sent hr => exact h.reaches_finish (.single (h.round_full hr))
  | case3 idx mem sent q hr =>
    exact h.reaches_finish (.head (round_cr hr h) (.single (round_peek h.notFaulted h.sends)))
  | case4 idx mem sent q hr _ => exact h.reaches_finish (.single (round_lf hr h))
  | case5 idx mem sent c q hr h1 h2 h3 ih =>
    obtain ⟨hc, hi⟩ := h3
    exact .of_rounds (.head (round_erase hr h hc hi) (rounds_echo h.notFaulted h.sends)) (ih (h.again (by omega)))
  | case6 idx mem sent c q hr h1 h2 h3 ih =>
    exact .of_rounds (.single (round_store hr h h1 h2 h3)) (ih (h.again hr))
  | case7 idx mem sent c q hr => exact h.reaches_finish (.single (h.round_full hr))

end LoopTop

/-- A line in `FETCH` within R39 is at the top of its own loop. -/
theorem loopTop_of_fetch (hinv : SpecInv s) (hf : s.faulted = false) (hl : s.lstate = .fetch) (hen : s.txen = true) :
    LoopTop s s s.idx.toNat s.dmem [] s.rxq s.txWait := by
  obtain ⟨-, -, hline, -⟩ := hinv
  obtain ⟨-, hmem, hidx⟩ := (lineInBounds_iff s).1 hline (by simp [hl])
  refine ⟨?_, hf, hen, hmem, hidx⟩
  rw [State.lineAt, BitVec.ofNat_toNat, BitVec.setWidth_eq, List.append_nil, ← hl]
  rfl

end Line

/-- Settles O58: rounds bring the line where the procedure ends, and the schedule runs them. -/
theorem lineReceptionRefinesProcedure : Obligations.LineReceptionRefinesProcedure := by
  intro s r hinv hf hl hen procedure
  obtain ⟨t, rounds, outcome⟩ := (loopTop_of_fetch hinv hf hl hen).reaches
  rw [procedure] at outcome
  obtain ⟨hcount, wait, rfl⟩ := outcome
  obtain ⟨n, run⟩ := rounds.run
  exact ⟨n, _, run, rfl, rfl, Nat.le_sub_of_add_le hcount, List.append_nil _, rfl, rfl, rfl, rfl, hf, rfl, rfl, rfl,
    fun good => good.2.2, fun quiet => ⟨hf, rfl, quiet⟩⟩

/-- Settles O59: rounds bring the line where the procedure blocks, in `FETCH` with room and nothing received. -/
theorem lineReceptionBlocksForInput : Obligations.LineReceptionBlocksForInput := by
  intro s hinv hf hl hen blocks
  obtain ⟨t, rounds, outcome⟩ := (loopTop_of_fetch hinv hf hl hen).reaches
  rw [blocks] at outcome
  obtain ⟨idx, mem, sent, wait, hr, rfl⟩ := outcome
  obtain ⟨n, run⟩ := rounds.run
  have hbusy : s.busy = true := ((busyExact_iff s).1 hinv.1).2 (by simp [hl])
  have room : hasRoom (s.lineAt .fetch idx mem sent [] wait) = true := by
    rw [hasRoom_iff, State.lineAt_idx (by omega)]
    exact hr
  exact ⟨n, _, run, stuck_fetch hf rfl room rfl, nofun, rfl, hbusy, rfl, hf, rfl, sent, rfl⟩

end Sys2Proof.Machine
end

section
/-! PROOFS. The family 60_exceptions: where a fault can arise (R190, R192), what a halted core still does (R194 to
R196), and the order of the checks of a delivered command word (R193). -/

namespace Sys2Proof.Machine

variable {s t : State} {m : Move} {cw : CmdWord}

/-! ### Where a fault arises -/

/-- The choice of the next agent leaves `FAULTED` alone. -/
theorem nextMove_faulted (s : State) : (nextMove s).2.faulted = s.faulted := by
  obtain ⟨_, _, _, _, e⟩ := nextMove_state s
  rw [e]

/-- An agent's step that sets `FAULTED` is a command word's delivery, and writes the fault record only (R190, R192). -/
theorem AgentStepTo.fault_precise (k : AgentStepTo s m (.next t)) (hs : s.faulted = false) (ht : t.faulted = true) :
    ∃ cw c, m = .host (.command cw) ∧ t = raiseFault c cw s := by
  obtain same | faults | ⟨-, rfl⟩ := k.record_cases
  · exact absurd (ht.symm.trans (same.faulted.trans hs)) nofun
  · exact faults
  · exact absurd ht nofun

/-- Settles O40: the step is an agent's, from a state with the same `FAULTED`. -/
theorem faultsArePrecise : Obligations.FaultsArePrecise := by
  intro s t hs h ht
  have k := step_to s
  rw [h] at k
  exact k.fault_precise ((nextMove_faulted s).trans hs) ht

/-! ### The halted core -/

/-- The core's elements stand whatever the channel, `DMEM` and the model's own fields become. -/
theorem sameCoreState_outside (s : State) (rxq : List Byte) (txh : Option Byte) (txline : List Byte) (dmem : Memory)
    (script : List Move) (tick txWait coreWait : Nat) :
    sameCoreState s { s with rxq := rxq, txh := txh, txline := txline, dmem := dmem, script := script, tick := tick,
                             txWait := txWait, coreWait := coreWait } :=
  ⟨rfl, rfl, rfl, rfl, rfl, rfl, rfl, rfl, rfl, rfl, rfl, rfl, rfl, rfl, rfl, rfl⟩

/-- A halted core takes no step (R194). -/
theorem CoreStepTo.eq_of_faulted (k : CoreStepTo s (.next t)) (hf : s.faulted = true) : t = s := by
  have waits : coreEnabled s = false := by simp [coreEnabled, hf]
  exact Host.Outcome.next.inj (k.coreStep_eq.symm.trans (coreStep_not_enabled waits))

/-- A halted core ignores every command word (R193, R194). -/
theorem hostStep_command_halted (cw : CmdWord) (hf : s.faulted = true) : hostStep (.command cw) s = .next s := by
  obtain ⟨-, e⟩ | ⟨hf', -⟩ | ⟨hf', -⟩ | ⟨hf', -⟩ := command_cases cw s
  · exact e
  all_goals exact absurd (hf.symm.trans hf') nofun

/-- From a halted core a step is reset, changes nothing, or is another move and changes only the channel or `DMEM`
(R194, R195). -/
theorem AgentStepTo.halted_cases (k : AgentStepTo s m (.next t)) (hf : s.faulted = true) :
    m = .host .reset ∨ t = s ∨ (sameCoreState s t ∧ m ≠ .core ∧ ∀ cw, m ≠ .host (.command cw)) := by
  cases k with
  | reset => exact .inl rfl
  | core _ k => exact .inr (.inl (k.eq_of_faulted hf))
  | received | sent | writeMem => exact .inr (.inr ⟨sameCoreState_outside s .., nofun, nofun⟩)
  | receiverOff | notReady | readReg | readMem | ignored => exact .inr (.inl rfl)
  | faulted _ _ hf' | configured _ hf' | lineOpened _ hf' => exact absurd (hf.symm.trans hf') nofun

/-- Settles O41: the chosen agent steps from a state with the same elements of the core. -/
theorem faultedCoreIsHalted : Obligations.FaultedCoreIsHalted := by
  intro s t hf h
  obtain ⟨_, _, _, _, chosen⟩ := nextMove_state s
  have k := step_to s
  rw [h] at k
  obtain hr | rfl | ⟨same, not_core, not_command⟩ := k.halted_cases ((nextMove_faulted s).trans hf)
  · exact .inl hr
  · refine .inr ⟨?_, fun _ => rfl⟩
    rw [chosen]
    exact sameCoreState_outside s ..
  · rw [chosen] at same
    refine .inr ⟨same, ?_⟩
    rintro (hm | ⟨cw, hm⟩)
    · exact absurd hm not_core
    · exact absurd hm (not_command cw)

/-! ### The order of acceptance -/

/-- A delivered word that decodes runs the instruction it decodes to (R193). -/
theorem hostStep_decoded {i : Instr} (e : decodeCommand cw = .ok i) (s : State) :
    hostStep (.command cw) s = exec i s := by
  simp [hostStep, deliverCommand, e]

/-- A legal word with opcode 0x01 runs `CONFIGURE` on its fields, and is the word of these (R72, R193). -/
theorem hostStep_configure (legal : ∃ i, decodeCommand cw = .ok i) (hop : cmdOp cw = 0x01#8) (s : State) :
    hostStep (.command cw) s = exec (.configure (cmdDsz cw) (cmdStp cw) (cmdPar cw) (cmdBaud cw)) s ∧
      encodeConfigure (cmdDsz cw) (cmdStp cw) (cmdPar cw) (cmdBaud cw) = cw := by
  obtain ⟨-, hres, e⟩ | ⟨hop', -⟩ | ⟨_, e, -⟩ := decodeCommand_cases cw
  · exact ⟨hostStep_decoded e s, encodeConfigure_fields hop hres⟩
  · exact absurd (hop.symm.trans hop') (by decide)
  · simp [e] at legal

/-- A legal word with opcode 0x02 runs `RECV_LINE` on its fields, and is the word of these (R73, R193). -/
theorem hostStep_recvLine (legal : ∃ i, decodeCommand cw = .ok i) (hop : cmdOp cw = 0x02#8) (s : State) :
    hostStep (.command cw) s = exec (.recvLine (cmdMaxlen cw) (cmdBase cw)) s ∧
      encodeRecvLine (cmdMaxlen cw) (cmdBase cw) = cw := by
  obtain ⟨hop', -⟩ | ⟨-, hres, e⟩ | ⟨_, e, -⟩ := decodeCommand_cases cw
  · exact absurd (hop.symm.trans hop') (by decide)
  · exact ⟨hostStep_decoded e s, encodeRecvLine_fields hop hres⟩
  · simp [e] at legal

/-- A busy core that is not halted records `BUSY` before any check of the command's own (R193). -/
theorem acceptCommand_busy {checks : List (Bool × FaultCause)} {body : State → State} (hf : s.faulted = false)
    (hb : s.busy = true) : acceptCommand cw checks body s = raiseFault .busy cw s := by
  simp [acceptCommand, hf, hb]

/-- Any legal word faults with `BUSY` while a line is in progress (R191, R193). -/
theorem hostStep_busy (legal : ∃ i, decodeCommand cw = .ok i) (hf : s.faulted = false) (hb : s.busy = true) :
    hostStep (.command cw) s = .next (raiseFault .busy cw s) := by
  obtain ⟨hop, -⟩ | ⟨hop, -⟩ := (decodeCommand_ok_iff cw).1 legal
  · obtain ⟨runs, word⟩ := hostStep_configure legal hop s
    rw [runs, exec, execConfigure, configureWith, word, acceptCommand_busy hf hb]
  · obtain ⟨runs, word⟩ := hostStep_recvLine legal hop s
    rw [runs, exec, execRecvLine, word, acceptCommand_busy hf hb]

/-- Settles O39: halted, illegal and busy in turn, then the checks and the body of the command that the word decodes
to. -/
theorem acceptanceOrder : Obligations.AcceptanceOrder := by
  intro cw s bad
  refine ⟨hostStep_command_halted cw, fun hf illegal => hostStep_illegal illegal hf, fun hf legal =>
    ⟨hostStep_busy legal hf, fun hb hop => ?configure, fun hb hop => ?recvLine⟩⟩
  case configure =>
    obtain ⟨runs, word⟩ := hostStep_configure legal hop s
    obtain ⟨illegalFmt, baudZero⟩ :=
      configureOperandFaults (cmdDsz cw) (cmdStp cw) (cmdPar cw) (cmdBaud cw) s hf hb
    rw [word] at illegalFmt baudZero
    rw [runs]
    exact ⟨illegalFmt, baudZero, exec_configure_accepted hf hb⟩
  case recvLine =>
    obtain ⟨runs, word⟩ := hostStep_recvLine legal hop s
    obtain ⟨notConfigured, lenZero, bufRange⟩ := recvLineOperandFaults (cmdMaxlen cw) (cmdBase cw) s hf hb
    rw [word] at notConfigured lenZero bufRange
    rw [runs]
    exact ⟨notConfigured, lenZero, bufRange, fun hc hlen hend =>
      recvLineCompletes _ _ s hf hb hc (half_ne_zero_iff.1 hlen) hend⟩

end Sys2Proof.Machine
end

section
/-! PROOFS. The family 70_reset_and_hazards: the reset step (R221), the host's access to `DMEM` (R226, R230, R231), and
the fairness of `CHAN_TX` and `CORE` (R233): how a byte in `TXH` and an erase echo come to the line. -/

namespace Sys2Proof.Machine

variable {s t : State} {m : Move} {sent : List Byte}

/-! ### Reset -/

/-- Reset gives every element of the core its reset value (R220). -/
theorem sameCoreState_applyReset (s : State) : sameCoreState State.reset (applyReset s) :=
  sameCoreState_outside State.reset ..

/-- Settles O44: the reset state of the core over the `DMEM` that was there. -/
theorem resetStep : Obligations.ResetStep := by
  intro s
  exact ⟨applyReset s, rfl, sameCoreState_applyReset s, rfl, rfl, rfl, fun _ => rfl⟩

/-! ### The host's access to `DMEM` -/

/-- The host reads the byte it wrote (R54, R230). -/
theorem hostReadByte_write_same (s : State) (a : Half) (v : Byte) :
    hostReadByte (s.withDmem (Memory.write s.dmem a.toNat v)) a = v := by
  simp [hostReadByte]

/-- The host's write leaves what it reads at every other address (R54, R230). -/
theorem hostReadByte_write_other (s : State) {a b : Half} (v : Byte) (h : b ≠ a) :
    hostReadByte (s.withDmem (Memory.write s.dmem a.toNat v)) b = hostReadByte s b := by
  have hne : b.toNat ≠ a.toNat := fun e => h (BitVec.eq_of_toNat_eq e)
  simp [hostReadByte, Memory.read_write_other s.dmem v hne]

/-- Settles O45: the two cases are whether the core owns the byte. -/
theorem hostMemoryAccess : Obligations.HostMemoryAccess := by
  intro s a v
  rw [← ownedByCore_iff]
  refine ⟨fun owned => ⟨if_pos owned, if_pos owned⟩, fun free => ⟨if_neg free, _, ?_, rfl,
    hostReadByte_write_same s a v, fun b hb => hostReadByte_write_other s v hb⟩⟩
  exact (if_neg free).trans (memWrite_inside a.isLt v s)

/-! ### Runs that come to a state -/

/-- Within `n` steps the run from a state comes to one with `P`, unless the host first makes an access that is refused
(log 10). -/
inductive Within (P : State → Prop) : Nat → State → Prop
  | here {n : Nat} {s : State} : P s → Within P n s
  | refused {n : Nat} {s : State} {a : Half} : step s = .refused (.bufferOwnedByCore a) → Within P (n + 1) s
  | after {n : Nat} {s t : State} : step s = .next t → Within P n t → Within P (n + 1) s

/-- The run that `Within` speaks of. -/
theorem Within.run {P : State → Prop} {n : Nat} (h : Within P n s) :
    ∃ k, k ≤ n ∧ ((∃ t, core.run k s = .next t ∧ P t) ∨ ∃ a, core.run k s = .refused (.bufferOwnedByCore a)) := by
  induction h with
  | here hp => exact ⟨0, Nat.zero_le _, .inl ⟨_, rfl, hp⟩⟩
  | refused e => exact ⟨1, Nat.le_add_left .., .inr ⟨_, core_run_refused e 0⟩⟩
  | after e _ ih =>
    obtain ⟨k, hk, out⟩ := ih
    exact ⟨k + 1, Nat.succ_le_succ hk, by rwa [core_run_next e]⟩

theorem Within.mono {P Q : State → Prop} {n : Nat} (hPQ : ∀ t, P t → Q t) (h : Within P n s) : Within Q n s := by
  induction h with
  | here hp => exact .here (hPQ _ hp)
  | refused e => exact .refused e
  | after e _ ih => exact .after e ih

/-- Within the invariant the machine's step is refused for the host's access, or is an agent's (R39, R231). -/
theorem step_cases_of_inv (h : Inv s) :
    (∃ a, step s = .refused (.bufferOwnedByCore a)) ∨
      ∃ t, step s = .next t ∧ AgentStepTo (nextMove s).2 (nextMove s).1 (.next t) := by
  obtain ⟨no_fault, refusal⟩ := noStopWithinInvariant s h.spec
  cases e : step s with
  | next t => exact .inr ⟨t, rfl, e ▸ step_to s⟩
  | fault f => exact absurd e (no_fault f)
  | refused r =>
    obtain ⟨a, rfl, -⟩ := refusal r e
    exact .inl ⟨a, rfl⟩

/-! ### The fair turns -/

/-- The agent that must move for what has been put out, or is still to be, to go on: `CHAN_TX` while `TXH` holds a
byte, else `CORE` (R233). -/
def awaited (s : State) : Move := if s.txh.isSome then .chanTx else .core

/-- How many unscripted moves may still pass the awaited agent over (log 2, log 16). -/
def patience (s : State) : Nat := if s.txh.isSome then s.txWait else s.coreWait

theorem nextMove_of_chanTxDue (hs : s.script = []) (hdue : chanTxDue s = true) : (nextMove s).1 = .chanTx := by
  simp [nextMove, hs, hdue]

theorem nextMove_of_coreDue (hs : s.script = []) (hidle : chanTxDue s = false) (hdue : coreDue s = true) :
    (nextMove s).1 = .core := by
  simp [nextMove, hs, hidle, hdue]

theorem nextMove_txh (s : State) : (nextMove s).2.txh = s.txh := by
  obtain ⟨_, _, _, _, e⟩ := nextMove_state s
  rw [e]

/-- With nothing scripted the awaited agent moves, or there is one turn less in which it may be passed over (R233). -/
theorem fair_turn (hs : s.script = []) (hen : s.txen = true) (hcore : s.txh = none → coreEnabled s = true) :
    (nextMove s).1 = awaited s ∨ patience (nextMove s).2 < patience s := by
  obtain ⟨-, htx, hpassed⟩ := nextMove_unscripted hs
  simp only [awaited, patience, nextMove_txh]
  cases hb : s.txh with
  | some b =>
    by_cases hw : s.txWait = 0
    · exact .inl (nextMove_of_chanTxDue hs (by simp [chanTxDue, chanTxReady, hen, hb, hw]))
    · exact .inr (show (nextMove s).2.txWait < s.txWait by omega)
  | none =>
    by_cases hm : (nextMove s).1 = .core
    · exact .inl hm
    · have hc : (nextMove s).2.coreWait = s.coreWait - 1 := hpassed (by simp [passesCore, hcore hb, hm])
      have hw : s.coreWait ≠ 0 := fun hw => hm
        (nextMove_of_coreDue hs (by simp [chanTxDue, chanTxReady, hb]) (by simp [coreDue, hcore hb, hw]))
      exact .inr (show (nextMove s).2.coreWait < s.coreWait by omega)

/-! ### States that send -/

/-- Within the invariant, with `TXEN = 1` and no move scripted. -/
structure Sending (s : State) : Prop where
  inv : Inv s
  unscripted : s.script = []
  txen : s.txen = true

/-- The choice of the next agent leaves a sending state one. -/
theorem Sending.chosen (h : Sending s) : Sending (nextMove s).2 := by
  obtain ⟨hs, -⟩ := nextMove_unscripted h.unscripted
  obtain ⟨script, tick, txWait, coreWait, e⟩ := nextMove_state s
  refine ⟨?_, hs, ?_⟩ <;> rw [e]
  · exact h.inv.own_fields script tick txWait coreWait
  · exact h.txen

/-- No agent's step writes the coming moves (log 1). -/
theorem AgentStepTo.script_eq (k : AgentStepTo s m (.next t)) : t.script = s.script := by
  cases k with
  | core _ k => cases k <;> rfl
  | _ => rfl

/-- An agent's step leaves a sending state one, but for reset. -/
theorem Sending.agentStep (h : Sending s) (k : AgentStepTo s m (.next t)) : Sending t ∨ t = applyReset s := by
  have hs : t.script = [] := k.script_eq.trans h.unscripted
  have hinv : Inv t := k.keeps_inv h.inv
  obtain same | ⟨_, _, _, _, _, -, -, -, rfl⟩ | ⟨-, rfl⟩ := k.config_cases
  · exact .inl ⟨hinv, hs, same.txen.trans h.txen⟩
  · exact .inl ⟨hinv, hs, rfl⟩
  · exact .inr rfl

/-- What was to be sent is on the line and `TXH` empty, or reset has dropped it (R135, R220). -/
def Delivered (sent : List Byte) (t : State) : Prop := (t.txline = sent ∧ t.txh = none) ∨ ∃ u, t = applyReset u

/-! ### A byte in `TXH` comes to the line -/

/-- A sending state with a byte in `TXH`, the last of those put out. -/
structure Holding (sent : List Byte) (s : State) : Prop extends Sending s where
  full : s.txh.isSome = true
  stream : sentStream s = sent

theorem Holding.chosen (h : Holding sent s) : Holding sent (nextMove s).2 := by
  obtain ⟨_, _, _, _, e⟩ := nextMove_state s
  refine ⟨h.toSending.chosen, ?_, ?_⟩ <;> rw [e]
  · exact h.full
  · exact h.stream

/-- A step of `CHAN_TX` carries the byte in `TXH` to the line; one of another agent leaves it, or is reset. -/
theorem AgentStepTo.txh_cases (k : AgentStepTo s m (.next t)) (hen : s.txen = true) (hb : s.txh.isSome = true) :
    (t.txline = sentStream s ∧ t.txh = none) ∨ t = applyReset s ∨
      (m ≠ .chanTx ∧ t.txh = s.txh ∧ t.txline = s.txline ∧ t.txWait = s.txWait) := by
  cases k with
  | sent b _ h => exact .inl ⟨by simp [sentStream, h], rfl⟩
  | notReady hr => simp [chanTxReady, hen, hb] at hr
  | reset => exact .inr (.inl rfl)
  | core _ k =>
    cases k with
    | eraseSp _ _ h | eraseBs _ _ h => simp [h] at hb
    | _ => exact .inr (.inr ⟨nofun, rfl, rfl, rfl⟩)
  | _ => exact .inr (.inr ⟨nofun, rfl, rfl, rfl⟩)

/-- An agent's step delivers the byte held, or is not that of `CHAN_TX` and takes no turn from it. -/
theorem Holding.agentStep (h : Holding sent s) (k : AgentStepTo s m (.next t)) :
    Delivered sent t ∨ (m ≠ .chanTx ∧ Holding sent t ∧ t.txWait = s.txWait) := by
  obtain sends | rfl := h.toSending.agentStep k
  · obtain ⟨hline, hb⟩ | rfl | ⟨hm, hb, hline, hw⟩ := k.txh_cases h.txen h.full
    · exact .inl (.inl ⟨hline.trans h.stream, hb⟩)
    · exact .inl (.inr ⟨s, rfl⟩)
    · exact .inr ⟨hm, ⟨sends, hb ▸ h.full, by rw [sentStream, hb, hline]; exact h.stream⟩, hw⟩
  · exact .inl (.inr ⟨s, rfl⟩)

/-- A byte held is delivered before `CHAN_TX` is passed over once more than it may be (R233): by induction on the
turns left. -/
theorem Holding.delivers {n : Nat} (h : Holding sent s) (hn : s.txWait < n) : Within (Delivered sent) n s := by
  induction n generalizing s with
  | zero => omega
  | succ n ih =>
    obtain ⟨a, e⟩ | ⟨t, e, k⟩ := step_cases_of_inv h.inv
    · exact .refused e
    refine .after e ?_
    obtain delivered | ⟨hm, held, hw⟩ := h.chosen.agentStep k
    · exact .here delivered
    · obtain hm' | turn := fair_turn h.unscripted h.txen fun hb => absurd h.full (by simp [hb])
      · exact absurd (hm'.trans (if_pos h.full)) hm
      · rw [patience, patience, if_pos h.chosen.full, if_pos h.full] at turn
        exact ih held (by omega)

/-- Settles O38: the byte in `TXH` is held, and `txWait` says for how many turns. -/
theorem transmitEventuallyDrains : Obligations.TransmitEventuallyDrains := by
  intro s b hinv hs hen hb
  have held : Holding (s.txline ++ [b]) s := ⟨⟨hinv, hs, hen⟩, by simp [hb], by simp [sentStream, hb]⟩
  obtain ⟨k, hk, ⟨t, run, ⟨hline, hempty⟩ | ⟨u, rfl⟩⟩ | refusal⟩ := (held.delivers (Nat.lt_succ_self _)).run
  · exact ⟨k, hk, .inl ⟨t, run, hempty, .inl hline⟩⟩
  · exact ⟨k, hk, .inl ⟨_, run, rfl, .inr rfl⟩⟩
  · exact ⟨k, hk, .inr refusal⟩

/-! ### An erase echo completes -/

/-- A sending state in an erase step, not faulted; `sent` is what will have been put out once the echo is. -/
structure Echoing (sent : List Byte) (s : State) : Prop extends Sending s where
  notFaulted : s.faulted = false
  erasing : s.lstate = .eraseSp ∨ s.lstate = .eraseBs
  stream : sentStream s ++ eraseEcho s.lstate = sent

/-- The moves of `CORE` and `CHAN_TX` that the echo still needs: two for each byte to be put out, one for a byte in
`TXH`. -/
def echoWork (s : State) : Nat := 2 * (eraseEcho s.lstate).length + s.txh.toList.length

theorem Echoing.chosen (h : Echoing sent s) : Echoing sent (nextMove s).2 := by
  obtain ⟨_, _, _, _, e⟩ := nextMove_state s
  refine ⟨h.toSending.chosen, ?_, ?_, ?_⟩ <;> rw [e]
  · exact h.notFaulted
  · exact h.erasing
  · exact h.stream

/-- In an erase step `CORE` waits for an empty `TXH` only (R136, R152). -/
theorem coreEnabled_erasing (hf : s.faulted = false) (hl : s.lstate = .eraseSp ∨ s.lstate = .eraseBs) :
    coreEnabled s = s.txh.isNone := by
  obtain hl | hl := hl <;> simp [coreEnabled, hf, hl, udre]

/-- A line is in progress in an erase step (R39 (1)). -/
theorem Echoing.busy (h : Echoing sent s) : s.busy = true := by
  obtain ⟨hbusy, -⟩ := h.inv.spec
  refine ((busyExact_iff s).1 hbusy).2 fun hl => ?_
  obtain hl' | hl' := h.erasing <;> exact nomatch hl.symm.trans hl'

/-- The echo is on the line, or reset or a fault has cut it short. -/
def EchoEnded (sent : List Byte) (t : State) : Prop := Delivered sent t ∨ t.faulted = true

/-- What a step does to an echo: it cuts it short, puts out its last byte, takes it on by a move, or passes the awaited
agent over. -/
inductive EchoOutcome (sent : List Byte) (s : State) (m : Move) (t : State) : Prop
  | ended : EchoEnded sent t → EchoOutcome sent s m t
  | lastByte : Holding sent t → EchoOutcome sent s m t
  | advanced : Echoing sent t → echoWork t < echoWork s → EchoOutcome sent s m t
  | passedOver : m ≠ awaited s → Echoing sent t → echoWork t = echoWork s → patience t = patience s →
      EchoOutcome sent s m t

/-- A `CORE` step puts out the next byte of the echo, or waits for `CHAN_TX` (R161, R162). -/
theorem Echoing.coreStep (h : Echoing sent s) (sends : Sending t) (k : CoreStepTo s (.next t)) :
    EchoOutcome sent s .core t := by
  obtain ⟨-, hf, hl, hstream⟩ := h
  cases k with
  | wait hoff =>
    have hb : s.txh.isSome = true := by simpa [coreEnabled_erasing hf hl] using hoff
    exact .passedOver (by simp [awaited, hb]) ⟨sends, hf, hl, hstream⟩ rfl rfl
  | eraseSp _ hl' hb =>
    have hput : sentStream s ++ [byteSP, byteBS] = sent := by rwa [hl'] at hstream
    refine .advanced ⟨sends, hf, .inr rfl, ?_⟩ ?_
    · simpa [sentStream, hb, eraseEcho] using hput
    · simp [echoWork, hl', hb, eraseEcho]
  | eraseBs _ hl' hb =>
    have hput : sentStream s ++ [byteBS] = sent := by rwa [hl'] at hstream
    exact .lastByte ⟨sends, rfl, by simpa [sentStream, hb] using hput⟩
  | full _ hl' | cr _ _ hl' | lf _ _ hl' | erase _ _ _ hl' | store _ _ _ hl' | peek _ hl' | term _ hl' =>
    simp [hl'] at hl

/-- A move of an agent that is neither `CHAN_TX` nor `CORE` is not the awaited one. -/
theorem ne_awaited (htx : m ≠ .chanTx) (hcore : m ≠ .core) : m ≠ awaited s := by
  unfold awaited
  split
  · exact htx
  · exact hcore

/-- Any agent's step on an echo: the host can only end it, since a command faults while `BUSY = 1` (R193). -/
theorem Echoing.agentStep (h : Echoing sent s) (k : AgentStepTo s m (.next t)) : EchoOutcome sent s m t := by
  obtain sends | hreset := h.toSending.agentStep k
  case inr => exact .ended (.inl (.inr ⟨s, hreset⟩))
  cases k with
  | core _ k => exact h.coreStep sends k
  | sent b _ hb =>
    refine .advanced ⟨sends, h.notFaulted, h.erasing, ?_⟩ (by simp [echoWork, hb])
    simpa [sentStream, hb] using h.stream
  | notReady hr =>
    have hb : s.txh = none := by simpa [chanTxReady, h.txen] using hr
    exact .passedOver (by simp [awaited, hb]) h rfl rfl
  | reset => exact .ended (.inl (.inr ⟨s, rfl⟩))
  | faulted => exact .ended (.inr rfl)
  | ignored _ hf => exact absurd (h.notFaulted.symm.trans hf) nofun
  | configured _ _ hb | lineOpened _ _ hb => exact absurd (h.busy.symm.trans hb) nofun
  | received | receiverOff | readReg | readMem | writeMem =>
    exact .passedOver (ne_awaited nofun nofun) ⟨sends, h.notFaulted, h.erasing, h.stream⟩ rfl rfl

/-- The choice of the next agent leaves the echo where it is. -/
theorem echoWork_nextMove (s : State) : echoWork (nextMove s).2 = echoWork s := by
  obtain ⟨_, _, _, _, e⟩ := nextMove_state s
  rw [e]
  rfl

theorem awaited_nextMove (s : State) : awaited (nextMove s).2 = awaited s := by
  rw [awaited, nextMove_txh, awaited]

/-- With nothing scripted, a step that passes over the agent an echo waits for takes a turn from it (R233). -/
theorem Echoing.turn (h : Echoing sent s) :
    (nextMove s).1 = awaited (nextMove s).2 ∨ patience (nextMove s).2 < patience s := by
  rw [awaited_nextMove]
  exact fair_turn h.unscripted h.txen fun hb => by simp [coreEnabled_erasing h.notFaulted h.erasing, hb]

/-- An echo comes to its end: every step takes it on by a move or takes a turn from the awaited agent (R233). -/
theorem Echoing.completes {s : State} (h : Echoing sent s) : ∃ n, Within (EchoEnded sent) n s := by
  obtain ⟨a, e⟩ | ⟨t, e, k⟩ := step_cases_of_inv h.inv
  · exact ⟨1, .refused e⟩
  suffices later : ∃ n, Within (EchoEnded sent) n t by
    obtain ⟨n, later⟩ := later
    exact ⟨n + 1, .after e later⟩
  cases h.chosen.agentStep k with
  | ended hend => exact ⟨0, .here hend⟩
  | lastByte held => exact ⟨_, (held.delivers (Nat.lt_succ_self _)).mono fun _ => .inl⟩
  | advanced echo less =>
    have work : echoWork t < echoWork s := less.trans_eq (echoWork_nextMove s)
    exact echo.completes
  | passedOver hm echo same turns =>
    have work : echoWork t = echoWork s := same.trans (echoWork_nextMove s)
    have turn : patience t < patience s := turns.trans_lt (h.turn.resolve_left hm)
    exact echo.completes
termination_by (echoWork s, patience s)
decreasing_by
  · exact Prod.Lex.left _ _ work
  · exact work ▸ Prod.Lex.right _ turn

/-- Settles O60: the state is in an echo, which completes. -/
theorem eraseEchoCompletes : Obligations.EraseEchoCompletes := by
  intro s hinv hs hf hen hl
  have echo : Echoing (sentStream s ++ eraseEcho s.lstate) s := ⟨⟨hinv, hs, hen⟩, hf, hl, rfl⟩
  obtain ⟨n, within⟩ := echo.completes
  obtain ⟨k, -, ⟨t, run, (delivered | ⟨u, rfl⟩) | hfaulted⟩ | refusal⟩ := within.run
  · exact ⟨k, .inl ⟨t, run, .inl delivered⟩⟩
  · exact ⟨k, .inl ⟨_, run, .inr (.inr (sameCoreState_applyReset u))⟩⟩
  · exact ⟨k, .inl ⟨t, run, .inr (.inl hfaulted)⟩⟩
  · exact ⟨k, .inr refusal⟩

end Sys2Proof.Machine
end
